-- ==== Sys2Proof/Word.lean ====
section
/-! DEFINITION. The widths and the number ranges of the hub's words and names (spec 00, 01, 09). -/

namespace Sys2Proof

/-- A word that crosses a port window: 32 bits, bit 0 least significant (spec 09, introduction). -/
abbrev Word := BitVec 32

/-- A tick count; tick arithmetic is modulo 2^32 (spec 00 Conventions, R109). -/
abbrev Tick := BitVec 32

/-- The payload of a signal, 0 to 65535 (R131). -/
abbrev Payload := BitVec 16

/-- One of M0 to M3; a master and its port carry the same number (spec 00 Terms). -/
abbrev Master := Fin 4

/-- One of the thirty-two sources (R1). -/
abbrev Source := Fin 32

/-- One of the request lines REQ0 to REQ23 (R1). -/
abbrev Line := Fin 24

/-- The index `g` of a signal source G0 to G7; Gk is source 24 + k (R1). -/
abbrev SignalIndex := Fin 8

/-- An urgency, 0 to 7; 7 is the most urgent (R18). -/
abbrev Urgency := Fin 8

/-- A set of masters as four flags, master `k` in bit `k` (spec 09, introduction). -/
abbrev MasterSet := BitVec 4

/-- A set of sources as 32 flags, source `s` in bit `s` (spec 09, introduction). -/
abbrev SourceSet := BitVec 32

end Sys2Proof
end

