-- ==== Sys2Proof/Syntax.lean ====
section
/-! DEFINITION. The commands the hub takes from outside: one constructor of `Instr` per row of
spec/opcode_table.json. The rows that execute a command word name the port whose command queue's head is
executed; the word's own operands (operand A, operand B) are read from that head at execution (R149, R166). -/

namespace Sys2Proof

/-- What one TREF period samples at the input pins (R2, R49, R86, R159). A set flag of `req` is a high REQ
line; a set flag of `prst`, `iack` or `hrst` is an input sampled at its ASSERTED level (PRSTn and HRST are
active low at the pin, IACK active high: spec 08, section 8.8). -/
structure Samples where
  req  : BitVec 24
  prst : BitVec 4
  iack : BitVec 4
  hrst : Bool
  deriving DecidableEq, Repr

/-- The commands of the command summary, in the order of the code table of R165. -/
inductive Code where
  | join | leave | fence | unfence | mask | unmask | thresh | nest | openMode | quiet | loud
  | setClass | setOffer | setFence | bind | unbind | heir | route | urge | trig | auto | limit
  | enable | disable | flush | raise | pass | take | poll | done | doneSrc
  | status | readStack | readSrc | readRoute | readQ | time | notice
  deriving DecidableEq, Repr

/-- One step of the hub, a row of spec/opcode_table.json. -/
inductive Instr where
  /-- RISE (R3): the recognised rise of REQ`line` is taken at the tracker. -/
  | rise (line : Line)
  /-- FALL (R3): the recognised fall of REQ`line` is taken at the tracker. -/
  | fall (line : Line)
  /-- HUB_RESET (R159): the recognised assertion of HRST. -/
  | hubReset
  /-- HUB_RESET_RELEASE (R4): the recognised release of HRST, with the one sample of every REQ line taken then. -/
  | hubResetRelease (req : BitVec 24)
  /-- PORT_RESET (R49): the recognised assertion of PRSTn of port `p`. -/
  | portReset (p : Master)
  /-- PORT_RESET_RELEASE (R50): the recognised release of PRSTn of port `p`. -/
  | portResetRelease (p : Master)
  /-- IACK_PULSE (R86): the recognised assertion of IACK of port `p`. -/
  | iackPulse (p : Master)
  /-- ACK_READ (R85): a read of offset 08H of the window of port `p`. -/
  | ackRead (p : Master)
  /-- CMD_WRITE (R147): a write of `w` to offset 00H of the window of port `p`. -/
  | cmdWrite (p : Master) (w : Word)
  /-- RPL_READ (R153): a read of offset 00H of the window of port `p`. -/
  | rplRead (p : Master)
  /-- WINDOW_WRITE_IGNORED (R146): a write of `w` to the word at offset 4 × `offset` of the window of port `p`
  (1 PSTAT, 2 ACK, 3 offset 0CH). -/
  | windowWriteIgnored (p : Master) (offset : BitVec 2) (w : Word)
  /-- TICK (R109): the 64th TREF period, with its samples. -/
  | tick (sm : Samples)
  /-- OFFER_EXPIRY (R79): the raised expiry of the offer of master `m` is taken at the dispatcher. -/
  | offerExpiry (m : Master)
  /-- DEADLINE_EXPIRY (R116): the raised expiry of the entry of source `src` is taken at the context of `m`. -/
  | deadlineExpiry (m : Master) (src : Source)
  /-- JOIN (R41) is executed at port `p`. -/
  | join (p : Master)
  /-- LEAVE (R42) is executed at port `p`. -/
  | leave (p : Master)
  /-- FENCE (R45) is executed at port `p`. -/
  | fence (p : Master)
  /-- UNFENCE (R48) is executed at port `p`. -/
  | unfence (p : Master)
  /-- MASK (R53) is executed at port `p`. -/
  | mask (p : Master)
  /-- UNMASK (R53) is executed at port `p`. -/
  | unmask (p : Master)
  /-- THRESH (R54) is executed at port `p`. -/
  | thresh (p : Master)
  /-- NEST (R55) is executed at port `p`. -/
  | nest (p : Master)
  /-- OPEN (R55) is executed at port `p`. -/
  | openMode (p : Master)
  /-- QUIET (R57) is executed at port `p`. -/
  | quiet (p : Master)
  /-- LOUD (R57) is executed at port `p`. -/
  | loud (p : Master)
  /-- SETCLASS (R113) is executed at port `p`. -/
  | setClass (p : Master)
  /-- SETOFFER (R84) is executed at port `p`. -/
  | setOffer (p : Master)
  /-- SETFENCE (R124) is executed at port `p`. -/
  | setFence (p : Master)
  /-- BIND (R20) is executed at port `p`. -/
  | bind (p : Master)
  /-- UNBIND (R21) is executed at port `p`. -/
  | unbind (p : Master)
  /-- HEIR (R22) is executed at port `p`. -/
  | heir (p : Master)
  /-- ROUTE (R25) is executed at port `p`. -/
  | route (p : Master)
  /-- URGE (R26) is executed at port `p`. -/
  | urge (p : Master)
  /-- TRIG (R27, R28) is executed at port `p`. -/
  | trig (p : Master)
  /-- AUTO (R29) is executed at port `p`. -/
  | auto (p : Master)
  /-- LIMIT (R30) is executed at port `p`. -/
  | limit (p : Master)
  /-- ENABLE (R31) is executed at port `p`. -/
  | enable (p : Master)
  /-- DISABLE (R32) is executed at port `p`. -/
  | disable (p : Master)
  /-- FLUSH (R138, R139) is executed at port `p`. -/
  | flush (p : Master)
  /-- RAISE (R133) is executed at port `p`. -/
  | raise (p : Master)
  /-- PASS (R81) is executed at port `p`. -/
  | pass (p : Master)
  /-- TAKE (R87) is executed at port `p`. -/
  | take (p : Master)
  /-- POLL (R90, R91) is executed at port `p`. -/
  | poll (p : Master)
  /-- DONE (R98) is executed at port `p`. -/
  | done (p : Master)
  /-- DONESRC (R100) is executed at port `p`. -/
  | doneSrc (p : Master)
  /-- STATUS (R59) is executed at port `p`. -/
  | status (p : Master)
  /-- READSTACK (R60) is executed at port `p`. -/
  | readStack (p : Master)
  /-- READSRC (R17) is executed at port `p`. -/
  | readSrc (p : Master)
  /-- READROUTE (R35) is executed at port `p`. -/
  | readRoute (p : Master)
  /-- READQ (R142) is executed at port `p`. -/
  | readQ (p : Master)
  /-- TIME (R110) is executed at port `p`. -/
  | time (p : Master)
  /-- NOTICE (R162) is executed at port `p`. -/
  | notice (p : Master)
  /-- UNDEFINED_CODE (R166): a word whose code selects no command is executed at port `p`. -/
  | undefinedCode (p : Master)
  /-- IACK_RELEASE (R86): the recognised release of IACK of port `p`. -/
  | iackRelease (p : Master)
  /-- TREF_PERIOD (R109): a TREF period that completes no tick, with its samples. -/
  | trefPeriod (sm : Samples)
  deriving DecidableEq, Repr

/-- The row that executes the command `c` at port `p`. -/
def Instr.execution (p : Master) : Code → Instr
  | .join => .join p
  | .leave => .leave p
  | .fence => .fence p
  | .unfence => .unfence p
  | .mask => .mask p
  | .unmask => .unmask p
  | .thresh => .thresh p
  | .nest => .nest p
  | .openMode => .openMode p
  | .quiet => .quiet p
  | .loud => .loud p
  | .setClass => .setClass p
  | .setOffer => .setOffer p
  | .setFence => .setFence p
  | .bind => .bind p
  | .unbind => .unbind p
  | .heir => .heir p
  | .route => .route p
  | .urge => .urge p
  | .trig => .trig p
  | .auto => .auto p
  | .limit => .limit p
  | .enable => .enable p
  | .disable => .disable p
  | .flush => .flush p
  | .raise => .raise p
  | .pass => .pass p
  | .take => .take p
  | .poll => .poll p
  | .done => .done p
  | .doneSrc => .doneSrc p
  | .status => .status p
  | .readStack => .readStack p
  | .readSrc => .readSrc p
  | .readRoute => .readRoute p
  | .readQ => .readQ p
  | .time => .time p
  | .notice => .notice p

/-- The port and the command a row executes; none for a row that is no execution of a defined command. -/
def Instr.executed : Instr → Option (Master × Code)
  | .join p => some (p, .join)
  | .leave p => some (p, .leave)
  | .fence p => some (p, .fence)
  | .unfence p => some (p, .unfence)
  | .mask p => some (p, .mask)
  | .unmask p => some (p, .unmask)
  | .thresh p => some (p, .thresh)
  | .nest p => some (p, .nest)
  | .openMode p => some (p, .openMode)
  | .quiet p => some (p, .quiet)
  | .loud p => some (p, .loud)
  | .setClass p => some (p, .setClass)
  | .setOffer p => some (p, .setOffer)
  | .setFence p => some (p, .setFence)
  | .bind p => some (p, .bind)
  | .unbind p => some (p, .unbind)
  | .heir p => some (p, .heir)
  | .route p => some (p, .route)
  | .urge p => some (p, .urge)
  | .trig p => some (p, .trig)
  | .auto p => some (p, .auto)
  | .limit p => some (p, .limit)
  | .enable p => some (p, .enable)
  | .disable p => some (p, .disable)
  | .flush p => some (p, .flush)
  | .raise p => some (p, .raise)
  | .pass p => some (p, .pass)
  | .take p => some (p, .take)
  | .poll p => some (p, .poll)
  | .done p => some (p, .done)
  | .doneSrc p => some (p, .doneSrc)
  | .status p => some (p, .status)
  | .readStack p => some (p, .readStack)
  | .readSrc p => some (p, .readSrc)
  | .readRoute p => some (p, .readRoute)
  | .readQ p => some (p, .readQ)
  | .time p => some (p, .time)
  | .notice p => some (p, .notice)
  | .rise _ => none
  | .fall _ => none
  | .hubReset => none
  | .hubResetRelease _ => none
  | .portReset _ => none
  | .portResetRelease _ => none
  | .iackPulse _ => none
  | .ackRead _ => none
  | .cmdWrite _ _ => none
  | .rplRead _ => none
  | .windowWriteIgnored _ _ _ => none
  | .tick _ => none
  | .offerExpiry _ => none
  | .deadlineExpiry _ _ => none
  | .undefinedCode _ => none
  | .iackRelease _ => none
  | .trefPeriod _ => none

end Sys2Proof
end

