-- ==== Sys2Proof/Decode.lean ====
section
/-! DEFINITION. The hub's rows carry no bits in spec/opcode_table.json: they are events at pins and windows,
and the execution of command words that a port decodes itself (Machine/Operands.lean, R165, R166). So no word
spells a row. -/

namespace Sys2Proof

/-- No row of the table gives bits, so no word spells a row. -/
def decodeTableWord (_nbits _w : Nat) : Option Instr := none

end Sys2Proof
end

