-- ==== Sys2Proof/Config.lean ====
section
/-! DEFINITION. The sizes and counts the spec fixes for the part, each with its rule. The spec leaves no
value of a completed step open, so this file holds no free value. -/

namespace Sys2Proof.Config

/-- Words a port's command queue holds (R147). -/
def commandDepth : Nat := 4

/-- Words a port's reply queue holds (R152). -/
def replyDepth : Nat := 16

/-- Notices a port's notice queue holds (R160). -/
def noticeDepth : Nat := 8

/-- Entries an in-service stack holds (R37). -/
def stackDepth : Nat := 8

/-- Sources a reclaimed list holds (R119). -/
def reclaimedDepth : Nat := 8

/-- Entries a signal queue holds (R131). -/
def signalDepth : Nat := 4

/-- Entries one READSTACK reply carries at most (R60). -/
def readStackEntries : Nat := 4

/-- Successive samples at the new level that recognise a change of a REQ, PRSTn or IACK input (R2, R49, R86). -/
def samplesToRecognise : Nat := 2

/-- Successive samples at the new level that recognise a change of HRST (R159). -/
def samplesToRecogniseHrst : Nat := 4

/-- Hub-reset value of the class 1 limit, in ticks (R112). -/
def class1Reset : BitVec 16 := 100

/-- Hub-reset value of the class 2 limit, in ticks (R112). -/
def class2Reset : BitVec 16 := 1000

/-- Hub-reset value of the class 3 limit, in ticks (R112). -/
def class3Reset : BitVec 16 := 10000

/-- Hub-reset value of the offer limit, in ticks (R84, R112). -/
def offerLimitReset : BitVec 8 := 32

/-- Hub-reset value of the fence threshold, in misses (R112). -/
def fenceThresholdReset : Nat := 3

end Sys2Proof.Config
end

