-- ==== Sys2Proof/Machine/State.lean ====
section
/-! DEFINITION. The state of the RH-432: every record, queue, counter, setting and input the spec names, as
plain data, with its reset values; the faults and refusals; the queue of waiting commands. -/

namespace Sys2Proof.Machine

/-- Tracker states, in the encoding order of READSRC (R6, R169). -/
inductive SrcState where
  | idle | pending | offered | inService
  deriving DecidableEq, Repr

/-- How a line source is recognised (R18). -/
inductive Trigger where
  | edge | level
  deriving DecidableEq, Repr

/-- How the dispatcher orders the eligible targets (R18, R66). -/
inductive Policy where
  | fixed | rotate | least
  deriving DecidableEq, Repr

/-- A master's standing with the hub, in the encoding order of STATUS (R36, R169). -/
inductive PortState where
  | offline | online | leaving | fenced
  deriving DecidableEq, Repr

/-- Nesting mode (R55). -/
inductive NestMode where
  | nested | openMode
  deriving DecidableEq, Repr

/-- Line mode (R57). -/
inductive LineMode where
  | line | quiet
  deriving DecidableEq, Repr

/-- By which access a source was taken (R37, R168). -/
inductive Via where
  | ack | take | poll
  deriving DecidableEq, Repr

/-- Reply statuses (R167). -/
inductive Status where
  | empty | ok | none | late | notHeld
  | badCmd | badArg | notJoined | state | fenced | notOwner | busy | badCombo | full | notSole
  deriving DecidableEq, Repr

/-- The recognition of one input (R2, R49, R86, R159). `level` is the held level, `streak` counts the latest
successive samples opposite to it, and `change` says that a change to `level` is recognised and not yet taken. -/
structure Sampler where
  level  : Bool
  streak : Nat
  change : Bool
  deriving DecidableEq, Repr

/-- The samplers of REQ0..REQ23 (true is high) and of PRSTn, IACK and HRST (true is asserted). -/
structure Inputs where
  req  : Vector Sampler 24
  prst : Vector Sampler 4
  iack : Vector Sampler 4
  hrst : Sampler
  deriving DecidableEq, Repr

/-- A tracker record (R5). The line field of a signal source is absent; it stays false, as READSRC reads it (R17). -/
structure Tracker where
  state   : SrcState
  holder  : Option Master
  merged  : Bool
  again   : Bool
  line    : Bool
  passSet : MasterSet
  deriving DecidableEq, Repr

/-- A route record (R18). -/
structure Route where
  trigger    : Trigger
  urgency    : Urgency
  targets    : MasterSet
  policy     : Policy
  autodone   : Bool
  limitClass : Fin 4
  enabled    : Bool
  binder     : Option Master
  heir       : Option Master
  last       : Master
  deriving DecidableEq, Repr

/-- One entry of a signal queue (R131). -/
structure Signal where
  sender  : Master
  payload : Payload
  deriving DecidableEq, Repr

/-- One entry of an in-service stack (R37). `raised` says that the timebase has raised this entry's deadline
expiry and the expiry is not yet taken (R111, R116). -/
structure Entry where
  source  : Source
  urgency : Urgency
  via     : Via
  due     : Option Tick
  merged  : Bool
  signal  : Option Signal
  raised  : Bool
  deriving DecidableEq, Repr

/-- A master context record (R36). `stack` and `reclaimed` stand oldest first. -/
structure Context where
  portState : PortState
  maskSet   : SourceSet
  threshold : Fin 9
  nesting   : NestMode
  lineMode  : LineMode
  stack     : List Entry
  missCount : Nat
  reclaimed : List Source
  deriving DecidableEq, Repr

/-- An offer (R61). `raised` says that the timebase has raised this offer's expiry and the expiry is not yet
taken (R111, R79). -/
structure Offer where
  source  : Source
  expires : Option Tick
  raised  : Bool
  deriving DecidableEq, Repr

/-- The hub settings (R112). -/
structure Settings where
  class1         : BitVec 16
  class2         : BitVec 16
  class3         : BitVec 16
  offerLimit     : BitVec 8
  fenceThreshold : Nat
  deriving DecidableEq, Repr

/-- A notice with the fields its kind uses (R160). -/
inductive Notice where
  | joined (m : Master)
  | left (m : Master)
  | fenced (m : Master)
  | reclaimed (src : Source) (charged : Bool)
  | inherited (src : Source)
  deriving DecidableEq, Repr

/-- A port (R147, R148, R152, R160, R161), its lines and its data lines. Queues stand oldest first.
`resetHeld` is PRSTn held, as taken (R49); `iackHeld` is the assertion of IACK as taken, `ackWord` the word the data lines
carry for it (R86, R156). `readData` is the model's own field: the word the last window read returned. -/
structure Port where
  commands       : List Word
  replies        : List Word
  notices        : List Notice
  overrun        : Bool
  noticeOverflow : Bool
  resetHeld      : Bool
  iackHeld       : Bool
  ackWord        : Word
  readData       : Word
  deriving DecidableEq, Repr

/-- The hub. `hubHeld` is HRST held, as taken (R159). The source of an INTQ level is the offer record (R78, R157), so
INTQ is computed and not stored. `pending` is the queue of commands that wait to be taken, first in, first out. -/
@[ext]
structure State where
  hubHeld  : Bool
  inputs   : Inputs
  trackers : Vector Tracker 32
  routes   : Vector Route 32
  contexts : Vector Context 4
  offers   : Vector (Option Offer) 4
  period   : Fin 64
  tick     : Tick
  settings : Settings
  queues   : Vector (List Signal) 8
  ports    : Vector Port 4
  pending  : List Instr
  deriving DecidableEq, Repr

/-- Why the hub could stop with a fault. The spec gives no step that does: there is no constructor, so no
step of the model can end in a fault. Safe. -/
inductive Fault where
  deriving DecidableEq, Repr

/-- Why a row could be refused. -/
inductive Refusal where
  /-- A row without a meaning, raised by an arm of `exec` alone. No arm raises it: every row is modelled. Safe. -/
  | notModelled (mnemonic : String)
  deriving DecidableEq, Repr

/-- A sampler whose held level is `level`, with nothing seen since and no change waiting. -/
def Sampler.settled (level : Bool) : Sampler := { level := level, streak := 0, change := false }

/-- Hub-reset values of a tracker record (R5); `line` is the level sampled at the release of HRST. -/
def Tracker.reset (line : Bool) : Tracker :=
  { state := .idle, holder := none, merged := false, again := false, line := line, passSet := 0 }

/-- Hub-reset values of a route record (R18). -/
def Route.reset : Route :=
  { trigger := .edge, urgency := 0, targets := 0, policy := .fixed, autodone := false, limitClass := 0,
    enabled := false, binder := none, heir := none, last := 3 }

/-- Hub-reset and port-reset values of a master context (R36). -/
def Context.reset : Context :=
  { portState := .offline, maskSet := BitVec.allOnes 32, threshold := 0, nesting := .nested,
    lineMode := .line, stack := [], missCount := 0, reclaimed := [] }

/-- Hub-reset values of the hub settings (R112). -/
def Settings.reset : Settings :=
  { class1 := Config.class1Reset, class2 := Config.class2Reset, class3 := Config.class3Reset,
    offerLimit := Config.offerLimitReset, fenceThreshold := Config.fenceThresholdReset }

/-- A port with every queue empty and every flag clear (R159). -/
def Port.reset : Port :=
  { commands := [], replies := [], notices := [], overrun := false, noticeOverflow := false,
    resetHeld := false, iackHeld := false, ackWord := 0, readData := 0 }

/-- The hub right after a hub reset whose HRST has been released (R4, R5, R18, R36, R61, R112, R129, R131,
R159), every REQ line sampled low at the release and every PRSTn and IACK released (DESIGN CHOICE, log 1). -/
def State.reset : State where
  hubHeld  := false
  inputs   := { req := Vector.replicate 24 (Sampler.settled false), prst := Vector.replicate 4 (Sampler.settled false),
                iack := Vector.replicate 4 (Sampler.settled false), hrst := Sampler.settled false }
  trackers := Vector.replicate 32 (Tracker.reset false)
  routes   := Vector.replicate 32 Route.reset
  contexts := Vector.replicate 4 Context.reset
  offers   := Vector.replicate 4 none
  period   := 0
  tick     := 0
  settings := Settings.reset
  queues   := Vector.replicate 8 []
  ports    := Vector.replicate 4 Port.reset
  pending  := []

end Sys2Proof.Machine
end

