-- ==== Sys2Proof/Machine/Access.lean ====
section
/-! DEFINITION. The one way to each record of the state: reads and writes by number, set membership, and the
numbers of masters and sources. -/

namespace Sys2Proof.Machine

/-- M0 to M3 in ascending order. -/
def masters : List Master := [0, 1, 2, 3]

/-- The sources in ascending order (R1). -/
def sources : List Source :=
  [0, 1, 2, 3, 4, 5, 6, 7, 8, 9, 10, 11, 12, 13, 14, 15,
   16, 17, 18, 19, 20, 21, 22, 23, 24, 25, 26, 27, 28, 29, 30, 31]

/-- The urgencies, most urgent first (R71). -/
def urgencies : List Urgency := [7, 6, 5, 4, 3, 2, 1, 0]

/-- The line source that REQ`n` feeds (R1). -/
def lineSource (n : Line) : Source := ⟨n.val, by omega⟩

/-- The signal source Gg is source 24 + g (R1). -/
def signalSource (g : SignalIndex) : Source := ⟨24 + g.val, by omega⟩

/-- The signal index of a signal source; none for a line source (R1). -/
def signalIndex (src : Source) : Option SignalIndex :=
  if h : 24 ≤ src.val then some ⟨src.val - 24, by omega⟩ else none

/-- Whether the set of flags `x` holds member `i`. -/
def setHas {n : Nat} (x : BitVec n) (i : Fin n) : Bool := x.getLsbD i.val

/-- The set `x` with member `i` added. -/
def setAdd {n : Nat} (x : BitVec n) (i : Fin n) : BitVec n := x ||| BitVec.twoPow n i.val

/-- The set `x` with member `i` removed. -/
def setRemove {n : Nat} (x : BitVec n) (i : Fin n) : BitVec n := x &&& ~~~ BitVec.twoPow n i.val

/-- The tracker record of source `i`. -/
def State.tracker (s : State) (i : Source) : Tracker := s.trackers[i.val]

/-- `s` with the tracker record of source `i` replaced. -/
def State.setTracker (s : State) (i : Source) (t : Tracker) : State :=
  { s with trackers := s.trackers.set i.val t i.isLt }

/-- The route record of source `i`. -/
def State.route (s : State) (i : Source) : Route := s.routes[i.val]

/-- `s` with the route record of source `i` replaced. -/
def State.setRoute (s : State) (i : Source) (r : Route) : State :=
  { s with routes := s.routes.set i.val r i.isLt }

/-- The context of master `m`. -/
def State.ctx (s : State) (m : Master) : Context := s.contexts[m.val]

/-- `s` with the context of master `m` replaced. -/
def State.setCtx (s : State) (m : Master) (c : Context) : State :=
  { s with contexts := s.contexts.set m.val c m.isLt }

/-- The offer record of master `m`; none when it is empty. -/
def State.offer (s : State) (m : Master) : Option Offer := s.offers[m.val]

/-- `s` with the offer record of master `m` replaced. -/
def State.setOffer (s : State) (m : Master) (o : Option Offer) : State :=
  { s with offers := s.offers.set m.val o m.isLt }

/-- The signal queue of Gg, oldest entry first. -/
def State.queue (s : State) (g : SignalIndex) : List Signal := s.queues[g.val]

/-- `s` with the signal queue of Gg replaced. -/
def State.setQueue (s : State) (g : SignalIndex) (q : List Signal) : State :=
  { s with queues := s.queues.set g.val q g.isLt }

/-- Port `p`. -/
def State.port (s : State) (p : Master) : Port := s.ports[p.val]

/-- `s` with port `p` replaced. -/
def State.setPort (s : State) (p : Master) (q : Port) : State :=
  { s with ports := s.ports.set p.val q p.isLt }

/-- `s` with its input samplers replaced. -/
def State.setInputs (s : State) (i : Inputs) : State := { s with inputs := i }

/-- The sampler of REQ`n`. -/
def State.reqLine (s : State) (n : Line) : Sampler := s.inputs.req[n.val]

/-- The sampler of PRSTn of port `p`. -/
def State.prstInput (s : State) (p : Master) : Sampler := s.inputs.prst[p.val]

/-- The sampler of IACK of port `p`. -/
def State.iackInput (s : State) (p : Master) : Sampler := s.inputs.iack[p.val]

/-- `s` with its hub settings replaced. -/
def State.setSettings (s : State) (h : Settings) : State := { s with settings := h }

/-- A line source is one of 0 to 23 (R1). -/
def isLineSource (src : Source) : Bool := src.val < 24

/-- The master is ONLINE. -/
def State.online (s : State) (m : Master) : Bool := (s.ctx m).portState == .online

/-- A master whose port state is not OFFLINE is present (spec 00, Conventions). -/
def State.present (s : State) (m : Master) : Bool := (s.ctx m).portState != .offline

/-- A reset input is held, from the recognition of its assertion to the recognition of its release (R49, R159): its
recognised level is asserted, or the hub has taken it as `taken` and no recognised change waits. -/
def Sampler.holds (taken : Bool) (i : Sampler) : Bool := i.level || (taken && !i.change)

/-- PRSTn of port `p` or HRST is held (R50, R146, R159). -/
def windowHeld (s : State) (p : Master) : Bool :=
  s.inputs.hrst.holds s.hubHeld || (s.prstInput p).holds (s.port p).resetHeld

/-- The INTQ output of port `m`: asserted exactly while the offer record is non-empty (R78, R157), and low while PRSTn
of the port or HRST is held (R50, R157, R159). -/
def State.intq (s : State) (m : Master) : Bool := (s.offer m).isSome && !windowHeld s m

end Sys2Proof.Machine
end

