-- ==== Sys2Proof/Machine/Flags.lean ====
section
/-! DEFINITION. How a tracker record's state, merged and again flags, line field and pass set change at each
event of chapter 1, on the record alone. What an event does to offers, stacks and queues is in Ops.lean. -/

namespace Sys2Proof.Machine

/-- The move to IDLE: holder absent, merged and again cleared, pass set emptied (R7, R8, R16). -/
def Tracker.toIdle (t : Tracker) : Tracker :=
  { t with state := .idle, holder := none, merged := false, again := false, passSet := 0 }

/-- A move to PENDING: holder absent, every other field as it was (R7, R63). -/
def Tracker.toPending (t : Tracker) : Tracker := { t with state := .pending, holder := none }

/-- The move to OFFERED with holder `m` (R75). -/
def Tracker.toOffered (t : Tracker) (m : Master) : Tracker := { t with state := .offered, holder := some m }

/-- Master `m` joins the pass set (R16). -/
def Tracker.addPass (t : Tracker) (m : Master) : Tracker := { t with passSet := setAdd t.passSet m }

/-- The line field takes the new level (R3). -/
def Tracker.setLine (t : Tracker) (high : Bool) : Tracker := { t with line := high }

/-- An edge event, by the state it finds, the line field apart (R9). -/
def Tracker.edgeEvent (t : Tracker) : Tracker :=
  match t.state with
  | .idle => { t with state := .pending }
  | .pending => { t with merged := true }
  | .offered => { t with merged := true }
  | .inService => if t.again then { t with merged := true } else { t with again := true }

/-- An assert event, by the state it finds, the line field apart (R10). -/
def Tracker.assertEvent (t : Tracker) : Tracker :=
  match t.state with
  | .idle => { t with state := .pending }
  | .pending => t
  | .offered => t
  | .inService => t

/-- A deassert event, by the state it finds, the line field apart (R11). -/
def Tracker.deassertEvent (t : Tracker) : Tracker :=
  match t.state with
  | .idle => t
  | .pending => t.toIdle
  | .offered => t.toIdle
  | .inService => t

/-- The rest of a completed line source (R14): an edge source is PENDING exactly when again was set, which is
then cleared; a level source is PENDING exactly when its line field is high. The pass set is emptied. -/
def Tracker.completeLine (t : Tracker) (trigger : Trigger) : Tracker :=
  match trigger with
  | .edge => if t.again then { t.toPending with again := false, passSet := 0 } else t.toIdle
  | .level => if t.line then { t.toPending with passSet := 0 } else t.toIdle

/-- The rest of a completed signal source whose queue, its head removed, is `rest` (R14, R136). -/
def Tracker.completeSignal (t : Tracker) (rest : List Signal) : Tracker :=
  if rest.isEmpty then t.toIdle else { t.toPending with passSet := 0 }

/-- The rest of a reclaimed or released source (R15): PENDING; for an edge line source a set again flag is
folded into merged. -/
def Tracker.interrupt (t : Tracker) (edgeLine : Bool) : Tracker :=
  if edgeLine && t.again then { t.toPending with merged := true, again := false } else t.toPending

/-- The pending state recomputed by an accepted TRIG (R28). -/
def Tracker.retrigger (t : Tracker) (trigger : Trigger) : Tracker :=
  match trigger with
  | .edge => t.toIdle
  | .level => if t.line then { t.toPending with merged := false, again := false } else t.toIdle

/-- One sample `x` of an input whose change `n` successive opposite samples recognise (R2, R49, R86, R159). -/
def Sampler.sample (n : Nat) (x : Bool) (i : Sampler) : Sampler :=
  if x = i.level then { i with streak := 0 }
  else if n ≤ i.streak + 1 then { level := x, streak := 0, change := true }
  else { i with streak := i.streak + 1 }

/-- A change to `level` is recognised and not yet taken. -/
def Sampler.waiting (level : Bool) (i : Sampler) : Bool := i.change && (i.level == level)

/-- The recognised change is taken. -/
def Sampler.taken (i : Sampler) : Sampler := { i with change := false }

end Sys2Proof.Machine
end

