-- ==== Sys2Proof/Machine/Dispatcher.lean ====
section
/-! DEFINITION. Offers, eligibility, preference and the dispatch pass (chapter 4). -/

namespace Sys2Proof.Machine

/-- `s` with the tracker record of `src` changed by `f`. -/
def State.updTracker (s : State) (src : Source) (f : Tracker → Tracker) : State :=
  s.setTracker src (f (s.tracker src))

/-- `s` with the context of `m` changed by `f`. -/
def State.updCtx (s : State) (m : Master) (f : Context → Context) : State := s.setCtx m (f (s.ctx m))

/-- `s` with the route record of `src` changed by `f`. -/
def State.updRoute (s : State) (src : Source) (f : Route → Route) : State := s.setRoute src (f (s.route src))

/-- `s` with port `p` changed by `f`. -/
def State.updPort (s : State) (p : Master) (f : Port → Port) : State := s.setPort p (f (s.port p))

/-- The withdrawal of the offer of `m`, if it holds one: the source becomes PENDING with its holder absent and
the record is emptied; the pass set, merged and last keep their values (R63). -/
def withdraw (m : Master) (s : State) : State :=
  match s.offer m with
  | some o => (s.updTracker o.source Tracker.toPending).setOffer m none
  | none => s

/-- The withdrawal of the offer of source `src`, if it is OFFERED, found by its holder (R7, R63). -/
def withdrawSource (src : Source) (s : State) : State :=
  match (s.tracker src).state, (s.tracker src).holder with
  | .offered, some m => (s.updTracker src Tracker.toPending).setOffer m none
  | _, _ => s

/-- The effective level of a NESTED master with a non-empty stack: the urgency at take of its newest entry;
none otherwise (R56). -/
def effectiveLevel (c : Context) : Option Urgency :=
  match c.nesting, c.stack.getLast? with
  | .nested, some e => some e.urgency
  | _, _ => none

/-- The nesting condition of R64: the urgency is greater than the effective level, where there is one. -/
def aboveLevel (u : Urgency) (c : Context) : Bool :=
  match effectiveLevel c with
  | some level => level < u
  | none => true

/-- The conditions of R64 without the LINE condition, as POLL judges them (R90). -/
def eligibleToPoll (s : State) (src : Source) (m : Master) : Bool :=
  setHas (s.route src).targets m
    && s.online m
    && !setHas (s.tracker src).passSet m
    && !setHas (s.ctx m).maskSet src
    && decide ((s.ctx m).threshold.val ≤ (s.route src).urgency.val)
    && aboveLevel (s.route src).urgency (s.ctx m)
    && decide ((s.ctx m).stack.length < Config.stackDepth)

/-- A source is eligible for a master (R64). -/
def eligible (s : State) (src : Source) (m : Master) : Bool :=
  ((s.ctx m).lineMode == .line) && eligibleToPoll s src m

/-- A source is offerable (R65). -/
def offerable (s : State) (src : Source) : Bool :=
  ((s.tracker src).state == .pending) && (s.route src).enabled && ((s.route src).targets != 0)

/-- The order in which a policy names the masters, before the ineligible are left out (R66, R67). Depths at or
beyond the stack's size are left out: such a master is eligible for nothing (R64). -/
def policyOrder (s : State) (src : Source) : List Master :=
  match (s.route src).policy with
  | .fixed => masters
  | .rotate => [1, 2, 3, 4].map (fun k => (s.route src).last + Fin.ofNat 4 k)
  | .least => (List.range Config.stackDepth).flatMap
      (fun d => masters.filter (fun m => (s.ctx m).stack.length == d))

/-- The preference list of a source (R66). -/
def preference (s : State) (src : Source) : List Master := (policyOrder s src).filter (eligible s src)

/-- At least one target is ONLINE and every ONLINE target is in the pass set (R72). -/
def passSetCovers (s : State) (src : Source) : Bool :=
  masters.any (fun m => setHas (s.route src).targets m && s.online m)
    && masters.all (fun m =>
        !(setHas (s.route src).targets m && s.online m) || setHas (s.tracker src).passSet m)

/-- The clearing step that begins the consideration of a source (R72). -/
def clearPassSet (src : Source) (s : State) : State :=
  if passSetCovers s src then s.updTracker src (fun t => { t with passSet := 0 }) else s

/-- The expires tick of an offer made now: absent under an offer limit of 0 (R75). -/
def newExpires (s : State) : Option Tick :=
  if s.settings.offerLimit = 0 then none else some (s.tick + s.settings.offerLimit.setWidth 32)

/-- The making of an offer of `src` to `m` (R75). -/
def makeOffer (src : Source) (m : Master) (s : State) : State :=
  (s.updTracker src (fun t => t.toOffered m)).setOffer m
    (some { source := src, expires := newExpires s, raised := false })

/-- The masters of the preference list are tried in order (R73); a less urgent offer is replaced, its source
going to PENDING in the same step (R74). -/
def placeOffer (src : Source) : List Master → State → State
  | [], s => s
  | m :: rest, s =>
    match s.offer m with
    | none => makeOffer src m s
    | some o =>
      if (s.route o.source).urgency < (s.route src).urgency then makeOffer src m (withdraw m s)
      else placeOffer src rest s

/-- The consideration of one source at its place in the pass (R71 to R73). -/
def consider (s : State) (src : Source) : State :=
  if offerable s src then
    let cleared := clearPassSet src s
    placeOffer src (preference cleared src) cleared
  else s

/-- The order of a pass: most urgent first, ascending source number among equals (R71). -/
def passOrder (s : State) : List Source :=
  urgencies.flatMap (fun u => sources.filter (fun src => (s.route src).urgency == u))

/-- The offer of `m` no longer qualifies: its source is not enabled or not eligible for `m` (R70). -/
def offerFails (s : State) (m : Master) : Bool :=
  match s.offer m with
  | some o => !((s.route o.source).enabled && eligible s o.source m)
  | none => false

/-- The first step of a pass (R70). -/
def withdrawIneligible (s : State) : State :=
  masters.foldl (fun s m => if offerFails s m then withdraw m s else s) s

/-- A dispatch pass (R68 to R76). -/
def dispatchPass (s : State) : State :=
  let s1 := withdrawIneligible s
  (passOrder s1).foldl consider s1

end Sys2Proof.Machine
end

