-- ==== Sys2Proof/Machine/Ops.lean ====
section
/-! DEFINITION. The shared operations over the records: notices, rest, binding passage, the end of leaving,
fencing, takes, completions and reclaims. None of them runs a dispatch pass: a pass is the LAST step of an
event (R68), so the event's own definition runs it. -/

namespace Sys2Proof.Machine

/-- A notice is queued to a present master; a full queue discards it and sets the overflow flag (R160, R161). -/
def queueNotice (m : Master) (n : Notice) (s : State) : State :=
  if s.present m then
    if (s.port m).notices.length < Config.noticeDepth then
      s.updPort m (fun q => { q with notices := q.notices ++ [n] })
    else s.updPort m (fun q => { q with noticeOverflow := true })
  else s

/-- A notice about `m` is queued to every other present master (R52). -/
def notifyOthers (m : Master) (n : Notice) (s : State) : State :=
  masters.foldl (fun s k => if k = m then s else queueNotice k n s) s

/-- The notice queue of `m` is emptied and its overflow flag cleared (R43, R48, R49). -/
def clearNotices (m : Master) (s : State) : State :=
  s.updPort m (fun q => { q with notices := [], noticeOverflow := false })

/-- An edge line source: a line source whose trigger is EDGE (R1, R3). -/
def edgeLine (s : State) (src : Source) : Bool := isLineSource src && ((s.route src).trigger == .edge)

/-- Return to rest after a completion (R14): the head of a signal source's queue is removed first. -/
def restCompleted (src : Source) (s : State) : State :=
  match signalIndex src with
  | some g => (s.setQueue g (s.queue g).tail).updTracker src (fun t => t.completeSignal (s.queue g).tail)
  | none => s.updTracker src (fun t => t.completeLine (s.route src).trigger)

/-- Return to rest after a reclaim or a release (R15). -/
def restInterrupted (src : Source) (s : State) : State :=
  s.updTracker src (fun t => t.interrupt (edgeLine s src))

/-- The entry for `src` is removed from a stack; the others keep their order (R37). -/
def removeEntry (src : Source) (stack : List Entry) : List Entry := stack.filter (fun e => e.source != src)

/-- A source is placed as newest in a reclaimed list, the oldest dropped from a full one (R119). -/
def placeReclaimed (src : Source) (l : List Source) : List Source :=
  if l.length < Config.reclaimedDepth then l ++ [src] else l.tail ++ [src]

/-- Binding passage for one route bound by the departing master `m` (R23). -/
def passRoute (m : Master) (s : State) (src : Source) : State :=
  if (s.route src).binder = some m then
    match (s.route src).heir with
    | some h =>
      if s.online h then
        queueNotice h (.inherited src) (s.updRoute src (fun r => { r with binder := some h, heir := none }))
      else s.updRoute src (fun r => { r with binder := none, heir := none })
    | none => s.updRoute src (fun r => { r with binder := none })
  else s

/-- Binding passage of every route `m` binds, in ascending source number (R23, R24). -/
def bindingPassage (m : Master) (s : State) : State := sources.foldl (passRoute m) s

/-- The port state of `m` is set. -/
def setPortState (m : Master) (ps : PortState) (s : State) : State :=
  s.updCtx m (fun c => { c with portState := ps })

/-- The end of leaving, steps 1 to 6 of R43. -/
def endLeaving (m : Master) (s : State) : State :=
  let s1 := bindingPassage m (setPortState m .offline s)
  let s2 := (clearNotices m s1).updCtx m (fun c => { c with reclaimed := [], missCount := 0 })
  notifyOthers m (.left m) s2

/-- The uncharged reclaim of one entry of `m` at fencing (R46, step 2). -/
def reclaimUncharged (m : Master) (s : State) (e : Entry) : State :=
  let s1 := s.updCtx m (fun c => { c with stack := removeEntry e.source c.stack })
  let s2 := (restInterrupted e.source s1).updTracker e.source (fun t => t.addPass m)
  let s3 := s2.updCtx m (fun c => { c with reclaimed := placeReclaimed e.source c.reclaimed })
  queueNotice m (.reclaimed e.source false) s3

/-- The fencing procedure, steps 1 to 6 of R46. -/
def fenceMaster (m : Master) (s : State) : State :=
  let s1 := withdraw m s
  let s2 := (s1.ctx m).stack.foldl (reclaimUncharged m) s1
  let s3 := setPortState m .fenced (s2.updCtx m (fun c => { c with missCount := 0 }))
  notifyOthers m (.fenced m) (bindingPassage m s3)

/-- The limit of a deadline class; class 0 has none (R112). -/
def classLimit (h : Settings) (c : Fin 4) : Option (BitVec 16) :=
  match c with
  | 0 => none
  | 1 => some h.class1
  | 2 => some h.class2
  | 3 => some h.class3

/-- The due tick of an entry pushed now under class `c` (R93, R114). -/
def newDue (s : State) (c : Fin 4) : Option Tick :=
  (classLimit s.settings c).map (fun limit => s.tick + limit.setWidth 32)

/-- The head of the signal queue of a signal source; none for a line source (R93, R135). -/
def headSignal (s : State) (src : Source) : Option Signal :=
  (signalIndex src).bind (fun g => (s.queue g).head?)

/-- The entry that a take of `src` pushes now (R93). -/
def newEntry (s : State) (src : Source) (via : Via) : Entry :=
  { source := src, urgency := (s.route src).urgency, via := via, due := newDue s (s.route src).limitClass,
    merged := (s.tracker src).merged, signal := headSignal s src, raised := false }

/-- Steps 1 to 4 of R94, the entry or the rest apart: merged is cleared, last becomes `m`, the source leaves
the reclaimed list of `m`, and the offer record of `m` is emptied when it names the source. -/
def noteTake (m : Master) (src : Source) (s : State) : State :=
  let s1 := s.updTracker src (fun t => { t with merged := false })
  let s2 := s1.updRoute src (fun r => { r with last := m })
  let s3 := s2.updCtx m (fun c => { c with reclaimed := c.reclaimed.filter (· != src) })
  match s3.offer m with
  | some o => if o.source = src then s3.setOffer m none else s3
  | none => s3

/-- The effect of a take of `src` by `m`, its dispatch pass apart (R93 to R95). -/
def takeSource (m : Master) (src : Source) (via : Via) (s : State) : State :=
  if (s.route src).autodone then restCompleted src (noteTake m src s)
  else
    ((noteTake m src s).updTracker src (fun t => { t with state := .inService, holder := some m })).updCtx m
      (fun c => { c with stack := c.stack ++ [newEntry s src via] })

/-- The completion of the entry of `src` in the stack of `m`, steps 1 to 4 of R101. -/
def completeEntry (m : Master) (src : Source) (s : State) : State :=
  let s1 := s.updCtx m (fun c => { c with stack := removeEntry src c.stack, missCount := 0 })
  let s2 := restCompleted src s1
  if (s2.ctx m).portState = .leaving ∧ (s2.ctx m).stack = [] then endLeaving m s2 else s2

/-- The charged reclaim of the entry of `src` from the stack of `m`, steps 1 to 6 of R118, with the fencing
procedure in place of step 6 when step 5 brings the miss count to the fence threshold (R123). -/
def reclaimCharged (m : Master) (src : Source) (s : State) : State :=
  let s1 := s.updCtx m (fun c => { c with stack := removeEntry src c.stack })
  let s2 := (restInterrupted src s1).updTracker src (fun t => t.addPass m)
  let s3 := s2.updCtx m (fun c => { c with reclaimed := placeReclaimed src c.reclaimed })
  let s4 := queueNotice m (.reclaimed src true) s3
  let s5 := s4.updCtx m (fun c => { c with missCount := c.missCount + 1 })
  if (s5.ctx m).missCount = s5.settings.fenceThreshold then fenceMaster m s5
  else if (s5.ctx m).portState = .leaving ∧ (s5.ctx m).stack = [] then endLeaving m s5
  else s5

/-- An offer of `m` ends as at its expiry: the source becomes PENDING with `m` in its pass set and the record
is emptied (R79, R81); the dispatch pass is apart. -/
def lapseOffer (m : Master) (o : Offer) (s : State) : State :=
  (s.updTracker o.source (fun t => t.toPending.addPass m)).setOffer m none

/-- The release of one entry of `m` at its port reset (R49, step 2). -/
def releaseEntry (m : Master) (s : State) (e : Entry) : State :=
  restInterrupted e.source (s.updCtx m (fun c => { c with stack := removeEntry e.source c.stack }))

/-- A recognised change of HRST waits for its row: an assertion for HUB_RESET, a release for HUB_RESET_RELEASE. -/
def State.hrstWaits (s : State) : Bool := s.inputs.hrst.change

/-- A recognised change of HRST, or a recognised assertion of some PRSTn, waits for its row. The reset is taken at the
recognition (R49, R159), and so is what the release of HRST loads (R4), so every event that could reach what the row
writes comes after it: until then such an event's row changes nothing (DEDUCED, log 22). -/
def State.resetWaits (s : State) : Bool := s.hrstWaits || s.inputs.prst.toList.any (Sampler.waiting true)

/-- The recognised change of IACK of port `p` is taken; the data lines carry `w` for it. -/
def takeIackChange (p : Master) (held : Bool) (w : Word) (s : State) : State :=
  (s.setInputs { s.inputs with iack := s.inputs.iack.set p.val (s.iackInput p).taken p.isLt }).updPort p
    (fun q => { q with iackHeld := held, ackWord := w })

/-- The release of a reset of port `p`: an assertion of IACK that still waits is held through the release, so it is
taken as no access, with zero on the data lines (R86). -/
def ignoreIackAssertion (s : State) (p : Master) : State :=
  if (s.iackInput p).waiting true then takeIackChange p true 0 s else s

/-- An acknowledge access cannot begin at port `p`: a reset is held (R50, R159), or its release is recognised and not yet
taken, so that an assertion of IACK recognised by then is held through the release (R86; DEDUCED, log 10). -/
def iackIgnored (s : State) (p : Master) : Bool :=
  windowHeld s p || s.inputs.hrst.waiting false || (s.prstInput p).waiting false

/-- The window read of port `p` returned the word `w`. -/
def returnRead (p : Master) (w : Word) (s : State) : State := s.updPort p (fun q => { q with readData := w })

end Sys2Proof.Machine
end

