-- ==== Sys2Proof/Machine/Expiries.lean ====
section
/-! DEFINITION. The expiries the timebase has raised: OFFER_EXPIRY (R79), DEADLINE_EXPIRY (R116, R118). -/

namespace Sys2Proof.Machine

/-- OFFER_EXPIRY (R79): the offer whose expiry was raised ends, its holder joins the pass set, and a pass
starts. When that offer has ended, its raised mark has ended with it and the expiry is void. A recognised
reset is taken first (DEDUCED, log 22). -/
def execOfferExpiry (m : Master) (s : State) : Host.Outcome State Fault Refusal :=
  .next (match s.offer m with
    | some o => if !s.resetWaits && o.raised then dispatchPass (lapseOffer m o s) else s
    | none => s)

/-- The deadline expiry of the entry for `src` in the stack of `m` is raised and the entry still stands. -/
def deadlineRaised (s : State) (m : Master) (src : Source) : Bool :=
  (s.ctx m).stack.any (fun e => (e.source == src) && e.raised)

/-- DEADLINE_EXPIRY (R116, R118): the entry whose expiry was raised is reclaimed, charged, and a pass starts.
When that entry has ended, its raised mark has ended with it and the expiry is void. A recognised
reset is taken first (DEDUCED, log 22). -/
def execDeadlineExpiry (m : Master) (src : Source) (s : State) : Host.Outcome State Fault Refusal :=
  .next (if !s.resetWaits && deadlineRaised s m src then dispatchPass (reclaimCharged m src s) else s)

end Sys2Proof.Machine
end

