-- ==== Sys2Proof/Machine/Operands.lean ====
section
/-! DEFINITION. The command word: its fields, the code table, the operand ranges, the words each command
reserves, and the port states that accept it (R40, R150, R151, R165, R166). -/

namespace Sys2Proof.Machine

/-- The code field, bits 31..24 (R165). -/
def codeField (w : Word) : BitVec 8 := w.extractLsb' 24 8

/-- Operand A, bits 23..16 (R165). -/
def operandA (w : Word) : BitVec 8 := w.extractLsb' 16 8

/-- Operand B, bits 15..0 (R165). -/
def operandB (w : Word) : BitVec 16 := w.extractLsb' 0 16

/-- The command word of code field `code` with operands `a` and `b` (R165). -/
def commandWord (code : BitVec 8) (a : BitVec 8) (b : BitVec 16) : Word := code ++ a ++ b

/-- The code value of each command (R165, the code table). -/
def codeByte : Code → BitVec 8
  | .join => 0x01
  | .leave => 0x02
  | .fence => 0x03
  | .unfence => 0x04
  | .mask => 0x05
  | .unmask => 0x06
  | .thresh => 0x07
  | .nest => 0x08
  | .openMode => 0x09
  | .quiet => 0x0A
  | .loud => 0x0B
  | .setClass => 0x0C
  | .setOffer => 0x0D
  | .setFence => 0x0E
  | .bind => 0x0F
  | .unbind => 0x10
  | .heir => 0x11
  | .route => 0x12
  | .urge => 0x13
  | .trig => 0x14
  | .auto => 0x15
  | .limit => 0x16
  | .enable => 0x17
  | .disable => 0x18
  | .flush => 0x19
  | .raise => 0x1A
  | .pass => 0x1B
  | .take => 0x1C
  | .poll => 0x1D
  | .done => 0x1E
  | .doneSrc => 0x1F
  | .status => 0x20
  | .readStack => 0x21
  | .readSrc => 0x22
  | .readRoute => 0x23
  | .readQ => 0x24
  | .time => 0x25
  | .notice => 0x26

/-- The commands in the order of the code table (R165). -/
def codes : List Code :=
  [.join, .leave, .fence, .unfence, .mask, .unmask, .thresh, .nest, .openMode, .quiet, .loud,
   .setClass, .setOffer, .setFence, .bind, .unbind, .heir, .route, .urge, .trig, .auto, .limit,
   .enable, .disable, .flush, .raise, .pass, .take, .poll, .done, .doneSrc,
   .status, .readStack, .readSrc, .readRoute, .readQ, .time, .notice]

/-- The command a code field selects; none for 0 and for every value the table does not give (R165, R166). -/
def codeOf (code : BitVec 8) : Option Code := codes.find? (fun c => codeByte c == code)

/-- The operand ranges of R165: both fields lie in the command's row, and an unused field is zero. -/
def operandsOk (c : Code) (a : BitVec 8) (b : BitVec 16) : Bool :=
  match c with
  | .join | .leave | .nest | .openMode | .quiet | .loud | .pass | .take | .poll | .done | .time
  | .notice => a == 0 && b == 0
  | .fence | .unfence | .status => decide (a < 4) && b == 0
  | .mask | .unmask | .bind | .unbind | .enable | .disable | .doneSrc | .readSrc | .readRoute =>
    decide (a < 32) && b == 0
  | .thresh => decide (a < 9) && b == 0
  | .setOffer => b == 0
  | .setFence => decide (1 ≤ a) && decide (a < 8) && b == 0
  | .setClass => decide (1 ≤ a) && decide (a < 4) && b != 0
  | .heir => decide (a < 32) && decide (b < 5)
  | .route => decide (a < 32) && decide (b < 0x30)
  | .urge => decide (a < 32) && decide (b < 8)
  | .trig => decide (a < 24) && decide (b < 2)
  | .auto => decide (a < 32) && decide (b < 2)
  | .limit => decide (a < 32) && decide (b < 4)
  | .readStack => decide (a < 4) && decide (b < 8)
  | .raise => decide (a < 8)
  | .flush | .readQ => decide (a < 8) && b == 0

/-- The words of the reply queue a command reserves, its header among them (R150). -/
def reservedWords : Code → Nat
  | .readStack => 9
  | .readQ => 6
  | .status => 3
  | .take | .poll | .readSrc | .readRoute | .time | .notice => 2
  | .join | .leave | .fence | .unfence | .mask | .unmask | .thresh | .nest | .openMode | .quiet
  | .loud | .setClass | .setOffer | .setFence | .bind | .unbind | .heir | .route | .urge | .trig
  | .auto | .limit | .enable | .disable | .flush | .raise | .pass | .done | .doneSrc => 1

/-- The words a command of undefined code reserves (R150). -/
def reservedUndefined : Nat := 1

/-- The commands R40 accepts in every port state. -/
def isQuery : Code → Bool
  | .status | .time | .readSrc | .readRoute | .readStack | .readQ | .notice => true
  | .join | .leave | .fence | .unfence | .mask | .unmask | .thresh | .nest | .openMode | .quiet
  | .loud | .setClass | .setOffer | .setFence | .bind | .unbind | .heir | .route | .urge | .trig
  | .auto | .limit | .enable | .disable | .flush | .raise | .pass | .take | .poll | .done
  | .doneSrc => false

/-- The port-state check: none when the command is accepted, else the refusal (R40). -/
def portStateRefusal (c : Code) (ps : PortState) : Option Status :=
  match ps with
  | .offline => if c = .join ∨ isQuery c then none else some .notJoined
  | .online => none
  | .leaving => if c = .done ∨ c = .doneSrc ∨ isQuery c then none else some .state
  | .fenced => if isQuery c then none else some .fenced

/-- The master that operand A names; the operand check has bounded it (R165). -/
def masterOf (a : BitVec 8) : Master := ⟨a.toNat % 4, Nat.mod_lt _ (by decide)⟩

/-- The source that operand A names; the operand check has bounded it (R165). -/
def sourceOf (a : BitVec 8) : Source := ⟨a.toNat % 32, Nat.mod_lt _ (by decide)⟩

/-- The signal index that operand A names; the operand check has bounded it (R165). -/
def signalOf (a : BitVec 8) : SignalIndex := ⟨a.toNat % 8, Nat.mod_lt _ (by decide)⟩

/-- The threshold that operand A of THRESH names (R165). -/
def thresholdOf (a : BitVec 8) : Fin 9 := ⟨a.toNat % 9, Nat.mod_lt _ (by decide)⟩

/-- The urgency that operand B of URGE names (R165). -/
def urgencyOf (b : BitVec 16) : Urgency := ⟨b.toNat % 8, Nat.mod_lt _ (by decide)⟩

/-- The limit class that operand B of LIMIT names (R165). -/
def classOf (b : BitVec 16) : Fin 4 := ⟨b.toNat % 4, Nat.mod_lt _ (by decide)⟩

/-- The heir that operand B of HEIR names: 4 means none (R165). -/
def heirOf (b : BitVec 16) : Option Master :=
  if b = 4 then none else some ⟨b.toNat % 4, Nat.mod_lt _ (by decide)⟩

/-- The targets of operand B of ROUTE, bits 3..0 (R165). -/
def targetsOf (b : BitVec 16) : MasterSet := b.extractLsb' 0 4

/-- The policy of operand B of ROUTE, bits 5..4: 0 FIXED, 1 ROTATE, 2 LEAST (R165). -/
def policyOf (b : BitVec 16) : Policy :=
  if b.extractLsb' 4 2 = 0 then .fixed else if b.extractLsb' 4 2 = 1 then .rotate else .least

/-- The trigger of operand B of TRIG: 0 EDGE, 1 LEVEL (R165). -/
def triggerOf (b : BitVec 16) : Trigger := if b = 0 then .edge else .level

end Sys2Proof.Machine
end

