-- ==== Sys2Proof/Machine/Words.lean ====
section
/-! DEFINITION. The layouts of the words the hub produces: reply header, take word, entry word, the data words
of the queries, the notice word and the port status word (R154, R155, R167 to R170). -/

namespace Sys2Proof.Machine

/-- The `width`-bit value `v` as a field whose lowest bit is bit `low`; every other bit is 0. -/
def field (low width v : Nat) : Word := ((BitVec.ofNat width v).setWidth 32) <<< low

/-- A one-bit field at bit `low`. -/
def flag (low : Nat) (x : Bool) : Word := field low 1 x.toNat

/-- Status values (R167). -/
def statusValue : Status → Nat
  | .empty => 0
  | .ok => 1
  | .none => 2
  | .late => 3
  | .notHeld => 4
  | .badCmd => 16
  | .badArg => 17
  | .notJoined => 18
  | .state => 19
  | .fenced => 20
  | .notOwner => 21
  | .busy => 22
  | .badCombo => 23
  | .full => 24
  | .notSole => 25

/-- The reply header word (R167). -/
def headerWord (code : BitVec 8) (st : Status) (count : Nat) (overrun noticeOverflow : Bool) : Word :=
  field 24 8 code.toNat ||| field 16 5 (statusValue st) ||| field 12 4 count
    ||| flag 11 overrun ||| flag 10 noticeOverflow

/-- The EMPTY header word: every field zero (R153, R167). -/
def emptyHeader : Word := headerWord 0 .empty 0 false false

/-- Via values (R168). -/
def viaValue : Via → Nat
  | .ack => 1
  | .take => 2
  | .poll => 3

/-- Bits 30..0 of the take word and of the stack entry word (R168): the sender in bits 19..18 (log 23). -/
def takeFields (e : Entry) : Word :=
  field 26 5 e.source.val ||| field 23 3 e.urgency.val ||| flag 22 e.merged ||| field 20 2 (viaValue e.via)
    ||| (match e.signal with
         | some g => field 18 2 g.sender.val ||| field 0 16 g.payload.toNat
         | none => 0)

/-- The take word of a take whose entry fields are `e` (R96, R168). -/
def takeWord (e : Entry) : Word := flag 31 true ||| takeFields e

/-- The NONE take word (R96, R168). -/
def noneTakeWord : Word := 0

/-- The entry word READSTACK returns: bit 31 says the due is present (R168). -/
def entryWord (e : Entry) : Word := flag 31 e.due.isSome ||| takeFields e

/-- The due word READSTACK returns: 0 when the due is absent (R60, R168). -/
def dueWord (e : Entry) : Word := e.due.getD 0

/-- State values of READSRC (R169). -/
def srcStateValue : SrcState → Nat
  | .idle => 0
  | .pending => 1
  | .offered => 2
  | .inService => 3

/-- A master number that may be absent: 0 when absent (R169). -/
def masterField (low : Nat) (m : Option Master) : Word :=
  match m with
  | some k => field low 2 k.val
  | none => 0

/-- The tracker record word of READSRC (R17, R169). -/
def trackerWord (src : Source) (t : Tracker) : Word :=
  field 24 5 src.val ||| field 8 4 t.passSet.toNat ||| flag 7 (isLineSource src && t.line) ||| flag 6 t.again
    ||| flag 5 t.merged ||| masterField 3 t.holder ||| flag 2 t.holder.isSome
    ||| field 0 2 (srcStateValue t.state)

/-- Policy values of ROUTE and READROUTE (R165, R169). -/
def policyValue : Policy → Nat
  | .fixed => 0
  | .rotate => 1
  | .least => 2

/-- The route record word of READROUTE (R35, R169). -/
def routeWord (src : Source) (r : Route) : Word :=
  field 24 5 src.val ||| field 20 2 r.last.val ||| masterField 18 r.heir ||| flag 17 r.heir.isSome
    ||| masterField 15 r.binder ||| flag 14 r.binder.isSome ||| flag 13 r.enabled ||| field 11 2 r.limitClass.val
    ||| flag 10 r.autodone ||| flag 9 (isLineSource src && (r.trigger == .level)) ||| field 6 3 r.urgency.val
    ||| field 4 2 (policyValue r.policy) ||| field 0 4 r.targets.toNat

/-- Port state values of STATUS and PSTAT (R169, R170). -/
def portStateValue : PortState → Nat
  | .offline => 0
  | .online => 1
  | .leaving => 2
  | .fenced => 3

/-- The first word of STATUS (R59, R169). -/
def statusWord (m : Master) (c : Context) (o : Option Offer) : Word :=
  field 28 2 m.val ||| field 21 4 c.reclaimed.length
    ||| (match o with
         | some offer => field 16 5 offer.source.val
         | none => 0)
    ||| flag 15 o.isSome ||| field 12 3 c.missCount ||| field 8 4 c.stack.length
    ||| flag 7 (c.lineMode == .quiet) ||| flag 6 (c.nesting == .openMode) ||| field 2 4 c.threshold.val
    ||| field 0 2 (portStateValue c.portState)

/-- The count word of READQ (R142, R169). -/
def queueCountWord (g : SignalIndex) (q : List Signal) : Word := field 24 3 g.val ||| field 0 3 q.length

/-- The word READQ returns for one queue entry: the sender in bits 17..16, the numbers R169 gives. R169 also calls them
the positions of the take word, whose sender R168 puts in bits 19..18: the two disagree, and each word follows the
numbers of its own layout (DESIGN CHOICE, log 23). -/
def signalWord (e : Signal) : Word := field 16 2 e.sender.val ||| field 0 16 e.payload.toNat

/-- The notice word (R160, R169). -/
def noticeWord : Notice → Word
  | .joined m => field 4 2 m.val ||| field 0 3 1
  | .left m => field 4 2 m.val ||| field 0 3 2
  | .fenced m => field 4 2 m.val ||| field 0 3 3
  | .reclaimed src charged => flag 15 charged ||| field 8 5 src.val ||| field 0 3 4
  | .inherited src => field 8 5 src.val ||| field 0 3 5

/-- The port status word while the window is operative (R155, R170). -/
def portStatusWord (s : State) (p : Master) : Word :=
  flag 28 (s.port p).overrun ||| field 20 4 (s.port p).notices.length
    ||| field 16 2 (portStateValue (s.ctx p).portState) ||| flag 12 (s.intq p)
    ||| field 4 5 (s.port p).replies.length ||| field 0 3 (Config.commandDepth - (s.port p).commands.length)

/-- What a bus read of the window of port `p` is answered with, where the offset by itself gives `own`: zero while
a reset is held (R50, R159); while IACK is asserted, as recognised, the take word the data lines carry (R86, R156);
else `own`. The word of an assertion not yet taken does not stand, so the read waits for it: none (log 10). -/
def busWord (s : State) (p : Master) (own : Word) : Option Word :=
  if windowHeld s p then some 0
  else if (s.iackInput p).level then
    if (s.port p).iackHeld then some (s.port p).ackWord else none
  else some own

/-- What a read of PSTAT (offset 04H) returns: by itself the port status word. The read changes no state and is no
row of the table (R146, R155, R156). -/
def pstatRead (s : State) (p : Master) : Option Word := busWord s p (portStatusWord s p)

/-- What a read of offset 0CH returns: by itself zero (R146, R156). -/
def offset0CRead (s : State) (p : Master) : Option Word := busWord s p 0

end Sys2Proof.Machine
end

