-- ==== Sys2Proof/Machine/Execute.lean ====
section
/-! DEFINITION. The execution of the command at the head of a port's command queue (R149 to R154): room,
decoding, the checks in their order, the command's effect, and its whole reply. -/

namespace Sys2Proof.Machine

/-- What an owning block gives back: the status, the data words, the notice-overflow flag of the header (set
by NOTICE alone, R154) and the state after the command's effect. -/
structure Answer where
  status         : Status
  data           : List Word
  noticeOverflow : Bool
  state          : State
  deriving DecidableEq, Repr

/-- A reply without data words: a refusal, which changes nothing else, or an answer. -/
def answer (st : Status) (s : State) : Answer :=
  { status := st, data := [], noticeOverflow := false, state := s }

/-- A reply OK with data words. -/
def answerData (data : List Word) (s : State) : Answer :=
  { status := .ok, data := data, noticeOverflow := false, state := s }

/-- The effect of a command whose word passed checks 1 to 3: caller, operand A, operand B, state. Its own
checks (R151, check 4) are part of it. -/
abbrev Effect := Master → BitVec 8 → BitVec 16 → State → Answer

/-- The reply is produced: the header carries the overrun flag, which is cleared, and the whole reply is
appended to the reply queue (R148, R149, R152, R154). -/
def produceReply (p : Master) (code : BitVec 8) (ans : Answer) : State :=
  ans.state.updPort p (fun q =>
    { q with
      replies := q.replies
        ++ headerWord code ans.status ans.data.length q.overrun ans.noticeOverflow :: ans.data
      overrun := false })

/-- The head word leaves the command queue of port `p`. -/
def popCommand (p : Master) (s : State) : State :=
  s.updPort p (fun q => { q with commands := q.commands.tail })

/-- The reply queue of port `p` has room for `n` more words (R149). -/
def hasRoom (s : State) (p : Master) (n : Nat) : Bool :=
  decide ((s.port p).replies.length + n ≤ Config.replyDepth)

/-- Checks 2 and 3 of R151 on the word `w`, then the command's own effect. -/
def answerCommand (c : Code) (effect : Effect) (p : Master) (w : Word) (s : State) : Answer :=
  if operandsOk c (operandA w) (operandB w) then
    match portStateRefusal c (s.ctx p).portState with
    | some st => answer st s
    | none => effect p (operandA w) (operandB w) s
  else answer .badArg s

/-- The command `c` can be executed at port `p` now: the head word's code field selects it, the reply queue
has the room it reserves (R149, R150), and no recognised reset waits to be taken first (R49, R159). -/
def canExecute (c : Code) (p : Master) (s : State) : Bool :=
  match (s.port p).commands with
  | [] => false
  | w :: _ => !s.resetWaits && (codeField w == codeByte c) && hasRoom s p (reservedWords c)

/-- One execution of command `c` at port `p` (R149). Where the head is another command, or there is none, or
the head still waits for room (DESIGN CHOICE, log 3), or a recognised reset has to be taken first (DEDUCED, log 22),
the row cannot be taken and nothing changes. -/
def executeCommand (c : Code) (effect : Effect) (p : Master) (s : State) : State :=
  match (s.port p).commands with
  | [] => s
  | w :: _ =>
    if !s.resetWaits && (codeField w == codeByte c) && hasRoom s p (reservedWords c) then
      produceReply p (codeField w) (answerCommand c effect p w (popCommand p s))
    else s

/-- One execution of a word of undefined code at port `p`: BADCMD, whatever its operands (R166). Where it cannot be
taken nothing changes, as for a command. -/
def executeUndefined (p : Master) (s : State) : State :=
  match (s.port p).commands with
  | [] => s
  | w :: _ =>
    if !s.resetWaits && (codeOf (codeField w)).isNone && hasRoom s p reservedUndefined then
      produceReply p (codeField w) (answer .badCmd (popCommand p s))
    else s

end Sys2Proof.Machine
end

