-- ==== Sys2Proof/Machine/HubSettings.lean ====
section
/-! DEFINITION. The hub settings: SETCLASS, SETOFFER, SETFENCE under the sole-member rule (R58, R84, R113, R124). -/

namespace Sys2Proof.Machine

/-- No master other than `p` is ONLINE or LEAVING (R58). -/
def soleMember (s : State) (p : Master) : Bool :=
  masters.all (fun m => (m == p) || ((s.ctx m).portState == .offline) || ((s.ctx m).portState == .fenced))

/-- The limit of class 1, 2 or 3 is set (R113). -/
def setClassLimit (c : Fin 4) (t : BitVec 16) (h : Settings) : Settings :=
  match c with
  | 0 => h
  | 1 => { h with class1 := t }
  | 2 => { h with class2 := t }
  | 3 => { h with class3 := t }

/-- SETCLASS past the port-state check (R113). -/
def setClassEffect (p : Master) (a : BitVec 8) (b : BitVec 16) (s : State) : Answer :=
  if soleMember s p then
    answer .ok (s.setSettings (setClassLimit ⟨a.toNat % 4, Nat.mod_lt _ (by decide)⟩ b s.settings))
  else answer .notSole s

/-- SETOFFER past the port-state check (R84). -/
def setOfferEffect (p : Master) (a : BitVec 8) (_b : BitVec 16) (s : State) : Answer :=
  if soleMember s p then answer .ok (s.setSettings { s.settings with offerLimit := a }) else answer .notSole s

/-- Every miss count becomes 0 (R124). -/
def clearMisses (s : State) : State :=
  masters.foldl (fun s m => s.updCtx m (fun c => { c with missCount := 0 })) s

/-- SETFENCE past the port-state check (R124). -/
def setFenceEffect (p : Master) (a : BitVec 8) (_b : BitVec 16) (s : State) : Answer :=
  if soleMember s p then
    answer .ok (clearMisses (s.setSettings { s.settings with fenceThreshold := a.toNat }))
  else answer .notSole s

/-- SETCLASS (R113). -/
def execSetClass (p : Master) (s : State) : Host.Outcome State Fault Refusal :=
  .next (executeCommand .setClass setClassEffect p s)

/-- SETOFFER (R84). -/
def execSetOffer (p : Master) (s : State) : Host.Outcome State Fault Refusal :=
  .next (executeCommand .setOffer setOfferEffect p s)

/-- SETFENCE (R124). -/
def execSetFence (p : Master) (s : State) : Host.Outcome State Fault Refusal :=
  .next (executeCommand .setFence setFenceEffect p s)

end Sys2Proof.Machine
end

