-- ==== Sys2Proof/Machine/Lines.lean ====
section
/-! DEFINITION. The request lines and the timebase: RISE, FALL, TREF_PERIOD, TICK (chapter 1, section 6.1). -/

namespace Sys2Proof.Machine

/-- The recognised change of REQ`n` is taken from the line inputs (R3). -/
def takeLineChange (n : Line) (s : State) : State :=
  s.setInputs { s.inputs with req := s.inputs.req.set n.val (s.reqLine n).taken n.isLt }

/-- A rise taken at the tracker (R3, R9, R10): the line field goes high; the trigger of the moment decides
between an edge and an assert event; a source that becomes PENDING from IDLE starts a pass (R69). -/
def riseEvent (src : Source) (s : State) : State :=
  let s1 := s.updTracker src (fun t =>
    match (s.route src).trigger with
    | .edge => (t.setLine true).edgeEvent
    | .level => (t.setLine true).assertEvent)
  if (s.tracker src).state = .idle then dispatchPass s1 else s1

/-- A fall taken at the tracker (R3, R10, R11): the line field goes low; under LEVEL it is a deassert event,
which makes a PENDING or OFFERED source IDLE and ends an offer, whose withdrawal starts a pass. -/
def fallEvent (src : Source) (s : State) : State :=
  match (s.route src).trigger with
  | .edge => s.updTracker src (fun t => t.setLine false)
  | .level =>
    if (s.tracker src).state = .offered then
      dispatchPass ((withdrawSource src s).updTracker src (fun t => (t.setLine false).toIdle))
    else s.updTracker src (fun t => (t.setLine false).deassertEvent)

/-- RISE (R3). Without a recognised rise of the line waiting, there is none to take and nothing changes
(DESIGN CHOICE, log 3). A recognised reset is taken first (DEDUCED, log 22), so hub reset discards a change recognised
in the period in which the assertion of HRST is recognised, for which R4 names no order (DESIGN CHOICE, log 22). -/
def execRise (n : Line) (s : State) : Host.Outcome State Fault Refusal :=
  .next (if !s.resetWaits && (s.reqLine n).waiting true then riseEvent (lineSource n) (takeLineChange n s) else s)

/-- FALL (R3). Without a recognised fall of the line waiting, there is none to take and nothing changes
(DESIGN CHOICE, log 3). A recognised reset is taken first, as for RISE (log 22). -/
def execFall (n : Line) (s : State) : Host.Outcome State Fault Refusal :=
  .next (if !s.resetWaits && (s.reqLine n).waiting false then fallEvent (lineSource n) (takeLineChange n s) else s)

/-- The samples of one TREF period at the PRSTn, IACK and HRST inputs (R49, R86, R159). -/
def samplePins (sm : Samples) (i : Inputs) : Inputs :=
  { i with
    prst := Vector.ofFn (fun k => (i.prst[k.val]).sample Config.samplesToRecognise (setHas sm.prst k))
    iack := Vector.ofFn (fun k => (i.iack[k.val]).sample Config.samplesToRecognise (setHas sm.iack k))
    hrst := i.hrst.sample Config.samplesToRecogniseHrst sm.hrst }

/-- The samples of one TREF period at the REQ lines (R2). -/
def sampleLines (sm : Samples) (i : Inputs) : Inputs :=
  { i with req := Vector.ofFn (fun k => (i.req[k.val]).sample Config.samplesToRecognise (setHas sm.req k)) }

/-- The samples of one TREF period: while HRST is held the line inputs take none (R4). -/
def samplePeriod (sm : Samples) (s : State) : State :=
  s.setInputs (if s.hubHeld then samplePins sm s.inputs else samplePins sm (sampleLines sm s.inputs))

/-- A recognised change of some input waits to be taken. It is taken before the next sample (R3; R49, R86 and R159
for the pins), so no period comes first. -/
def Inputs.changeWaits (i : Inputs) : Bool :=
  i.hrst.change || i.req.toList.any (·.change) || i.prst.toList.any (·.change) || i.iack.toList.any (·.change)

/-- TREF_PERIOD (R109): the period counter advances, except while HRST is held, when it stands at 0. The period
after count 63 is a TICK and not this row, and while a recognised change waits no period comes before it is taken
(R3): there nothing changes (DESIGN CHOICE, log 3). -/
def execTrefPeriod (sm : Samples) (s : State) : Host.Outcome State Fault Refusal :=
  .next (if s.inputs.changeWaits then s
    else if s.hubHeld then samplePeriod sm s
    else if s.period = 63 then s
    else samplePeriod sm { s with period := s.period + 1 })

/-- The offer's expiry is raised when its expires equals the new tick count (R111). -/
def raiseOffer (t : Tick) (o : Offer) : Offer := { o with raised := o.raised || (o.expires == some t) }

/-- The entry's deadline expiry is raised when its due equals the new tick count (R111). -/
def raiseEntry (t : Tick) (e : Entry) : Entry := { e with raised := e.raised || (e.due == some t) }

/-- The comparisons of a tick with every expires and every due (R111). -/
def raiseExpiries (t : Tick) (s : State) : State :=
  { s with
    offers := s.offers.map (fun o => o.map (raiseOffer t))
    contexts := s.contexts.map (fun c => { c with stack := c.stack.map (raiseEntry t) }) }

/-- TICK (R109, R111): the 64th period since the last tick takes the period counter back to 0, advances the
tick count by one and raises the expiries due. A period that is not the 64th, or falls while HRST is held, is
no tick, and no period comes while a recognised change waits (R3): there nothing changes (DESIGN CHOICE, log 3). -/
def execTick (sm : Samples) (s : State) : Host.Outcome State Fault Refusal :=
  .next (if s.inputs.changeWaits = false ∧ s.hubHeld = false ∧ s.period = 63 then
      raiseExpiries (s.tick + 1) (samplePeriod sm { s with period := 0, tick := s.tick + 1 })
    else s)

end Sys2Proof.Machine
end

