-- ==== Sys2Proof/Machine/Membership.lean ====
section
/-! DEFINITION. Membership commands: JOIN, LEAVE, FENCE, UNFENCE (R41 to R48). -/

namespace Sys2Proof.Machine

/-- JOIN past the port-state check (R41): refused STATE when ONLINE; an OFFLINE caller becomes ONLINE. -/
def joinEffect (p : Master) (_a : BitVec 8) (_b : BitVec 16) (s : State) : Answer :=
  if s.online p then answer .state s
  else answer .ok (dispatchPass (notifyOthers p (.joined p) (setPortState p .online s)))

/-- LEAVE past the port-state check (R42): the offer is withdrawn; an empty stack ends the leaving at once. -/
def leaveEffect (p : Master) (_a : BitVec 8) (_b : BitVec 16) (s : State) : Answer :=
  let s1 := withdraw p s
  answer .ok (dispatchPass
    (if (s1.ctx p).stack = [] then endLeaving p s1 else setPortState p .leaving s1))

/-- FENCE past the port-state check (R45): BADARG for the caller itself, STATE for an OFFLINE or FENCED
master, else the fencing procedure. -/
def fenceEffect (p : Master) (a : BitVec 8) (_b : BitVec 16) (s : State) : Answer :=
  if masterOf a = p then answer .badArg s
  else match (s.ctx (masterOf a)).portState with
    | .offline => answer .state s
    | .fenced => answer .state s
    | .online => answer .ok (dispatchPass (fenceMaster (masterOf a) s))
    | .leaving => answer .ok (dispatchPass (fenceMaster (masterOf a) s))

/-- The readmission of `m` (R48): OFFLINE, reclaimed list and notice queue emptied. -/
def readmit (m : Master) (s : State) : State :=
  clearNotices m (s.updCtx m (fun c => { c with portState := .offline, reclaimed := [] }))

/-- UNFENCE past the port-state check (R48): STATE unless the named master is FENCED. -/
def unfenceEffect (_p : Master) (a : BitVec 8) (_b : BitVec 16) (s : State) : Answer :=
  if (s.ctx (masterOf a)).portState = .fenced then answer .ok (dispatchPass (readmit (masterOf a) s))
  else answer .state s

/-- JOIN (R41). -/
def execJoin (p : Master) (s : State) : Host.Outcome State Fault Refusal :=
  .next (executeCommand .join joinEffect p s)

/-- LEAVE (R42). -/
def execLeave (p : Master) (s : State) : Host.Outcome State Fault Refusal :=
  .next (executeCommand .leave leaveEffect p s)

/-- FENCE (R45). -/
def execFence (p : Master) (s : State) : Host.Outcome State Fault Refusal :=
  .next (executeCommand .fence fenceEffect p s)

/-- UNFENCE (R48). -/
def execUnfence (p : Master) (s : State) : Host.Outcome State Fault Refusal :=
  .next (executeCommand .unfence unfenceEffect p s)

end Sys2Proof.Machine
end

