-- ==== Sys2Proof/Machine/Modes.lean ====
section
/-! DEFINITION. Masks, threshold and modes: MASK, UNMASK, THRESH, NEST, OPEN, QUIET, LOUD (R53 to R57). -/

namespace Sys2Proof.Machine

/-- The caller's offer is withdrawn, and a pass starts, when the offer satisfies `fails`; else nothing. -/
def withdrawWhen (fails : Offer → Bool) (p : Master) (s : State) : State :=
  match s.offer p with
  | some o => if fails o then dispatchPass (withdraw p s) else s
  | none => s

/-- MASK past the port-state check (R53). -/
def maskEffect (p : Master) (a : BitVec 8) (_b : BitVec 16) (s : State) : Answer :=
  answer .ok (withdrawWhen (fun o => o.source == sourceOf a) p
    (s.updCtx p (fun c => { c with maskSet := setAdd c.maskSet (sourceOf a) })))

/-- UNMASK past the port-state check (R53). -/
def unmaskEffect (p : Master) (a : BitVec 8) (_b : BitVec 16) (s : State) : Answer :=
  answer .ok (dispatchPass (s.updCtx p (fun c => { c with maskSet := setRemove c.maskSet (sourceOf a) })))

/-- The offer of `p` is withdrawn when its source is below the threshold of `p` (R54). -/
def withdrawBelow (p : Master) (s : State) : State :=
  match s.offer p with
  | some o => if (s.route o.source).urgency.val < (s.ctx p).threshold.val then withdraw p s else s
  | none => s

/-- THRESH past the port-state check (R54). -/
def threshEffect (p : Master) (a : BitVec 8) (_b : BitVec 16) (s : State) : Answer :=
  answer .ok (dispatchPass (withdrawBelow p (s.updCtx p (fun c => { c with threshold := thresholdOf a }))))

/-- NEST and OPEN past the port-state check (R55): BUSY unless the stack is empty. -/
def setNesting (mode : NestMode) (p : Master) (s : State) : Answer :=
  if (s.ctx p).stack = [] then answer .ok (s.updCtx p (fun c => { c with nesting := mode })) else answer .busy s

/-- NEST past the port-state check (R55). -/
def nestEffect (p : Master) (_a : BitVec 8) (_b : BitVec 16) (s : State) : Answer := setNesting .nested p s

/-- OPEN past the port-state check (R55). -/
def openEffect (p : Master) (_a : BitVec 8) (_b : BitVec 16) (s : State) : Answer := setNesting .openMode p s

/-- QUIET past the port-state check (R57): a pass starts only when an offer is withdrawn (R69). -/
def quietEffect (p : Master) (_a : BitVec 8) (_b : BitVec 16) (s : State) : Answer :=
  answer .ok (withdrawWhen (fun _ => true) p (s.updCtx p (fun c => { c with lineMode := .quiet })))

/-- LOUD past the port-state check (R57). -/
def loudEffect (p : Master) (_a : BitVec 8) (_b : BitVec 16) (s : State) : Answer :=
  answer .ok (dispatchPass (s.updCtx p (fun c => { c with lineMode := .line })))

/-- MASK (R53). -/
def execMask (p : Master) (s : State) : Host.Outcome State Fault Refusal :=
  .next (executeCommand .mask maskEffect p s)

/-- UNMASK (R53). -/
def execUnmask (p : Master) (s : State) : Host.Outcome State Fault Refusal :=
  .next (executeCommand .unmask unmaskEffect p s)

/-- THRESH (R54). -/
def execThresh (p : Master) (s : State) : Host.Outcome State Fault Refusal :=
  .next (executeCommand .thresh threshEffect p s)

/-- NEST (R55). -/
def execNest (p : Master) (s : State) : Host.Outcome State Fault Refusal :=
  .next (executeCommand .nest nestEffect p s)

/-- OPEN (R55). -/
def execOpen (p : Master) (s : State) : Host.Outcome State Fault Refusal :=
  .next (executeCommand .openMode openEffect p s)

/-- QUIET (R57). -/
def execQuiet (p : Master) (s : State) : Host.Outcome State Fault Refusal :=
  .next (executeCommand .quiet quietEffect p s)

/-- LOUD (R57). -/
def execLoud (p : Master) (s : State) : Host.Outcome State Fault Refusal :=
  .next (executeCommand .loud loudEffect p s)

end Sys2Proof.Machine
end

