-- ==== Sys2Proof/Machine/Queries.lean ====
section
/-! DEFINITION. The queries, TIME, NOTICE and words of undefined code: STATUS, READSTACK, READSRC, READROUTE, READQ,
TIME, NOTICE, UNDEFINED_CODE (R17, R35, R59, R60, R110, R142, R162, R166). -/

namespace Sys2Proof.Machine

/-- STATUS (R59, R169): the context word and the mask set. -/
def statusEffect (_p : Master) (a : BitVec 8) (_b : BitVec 16) (s : State) : Answer :=
  let m := masterOf a
  answerData [statusWord m (s.ctx m) (s.offer m), (s.ctx m).maskSet] s

/-- READSTACK (R60): up to four entries from position `b`, an entry word and a due word each. -/
def readStackEffect (_p : Master) (a : BitVec 8) (b : BitVec 16) (s : State) : Answer :=
  answerData
    ((((s.ctx (masterOf a)).stack.drop b.toNat).take Config.readStackEntries).flatMap
      (fun e => [entryWord e, dueWord e])) s

/-- READSRC (R17, R169). -/
def readSrcEffect (_p : Master) (a : BitVec 8) (_b : BitVec 16) (s : State) : Answer :=
  answerData [trackerWord (sourceOf a) (s.tracker (sourceOf a))] s

/-- READROUTE (R35, R169). -/
def readRouteEffect (_p : Master) (a : BitVec 8) (_b : BitVec 16) (s : State) : Answer :=
  answerData [routeWord (sourceOf a) (s.route (sourceOf a))] s

/-- READQ (R142, R169): the count word, then one word per entry, oldest first. -/
def readQEffect (_p : Master) (a : BitVec 8) (_b : BitVec 16) (s : State) : Answer :=
  answerData (queueCountWord (signalOf a) (s.queue (signalOf a)) :: (s.queue (signalOf a)).map signalWord) s

/-- TIME (R110). -/
def timeEffect (_p : Master) (_a : BitVec 8) (_b : BitVec 16) (s : State) : Answer := answerData [s.tick] s

/-- The oldest notice is removed and the overflow flag cleared (R161, R162). -/
def popNotice (p : Master) (s : State) : State :=
  s.updPort p (fun q => { q with notices := q.notices.tail, noticeOverflow := false })

/-- NOTICE (R162): OK with the oldest notice, or NONE; either header carries the notice-overflow flag and
clears it (R161). -/
def noticeEffect (p : Master) (_a : BitVec 8) (_b : BitVec 16) (s : State) : Answer :=
  match (s.port p).notices with
  | n :: _ =>
    { status := .ok, data := [noticeWord n], noticeOverflow := (s.port p).noticeOverflow, state := popNotice p s }
  | [] => { status := .none, data := [], noticeOverflow := (s.port p).noticeOverflow, state := popNotice p s }

/-- STATUS (R59). -/
def execStatus (p : Master) (s : State) : Host.Outcome State Fault Refusal :=
  .next (executeCommand .status statusEffect p s)

/-- READSTACK (R60). -/
def execReadStack (p : Master) (s : State) : Host.Outcome State Fault Refusal :=
  .next (executeCommand .readStack readStackEffect p s)

/-- READSRC (R17). -/
def execReadSrc (p : Master) (s : State) : Host.Outcome State Fault Refusal :=
  .next (executeCommand .readSrc readSrcEffect p s)

/-- READROUTE (R35). -/
def execReadRoute (p : Master) (s : State) : Host.Outcome State Fault Refusal :=
  .next (executeCommand .readRoute readRouteEffect p s)

/-- READQ (R142). -/
def execReadQ (p : Master) (s : State) : Host.Outcome State Fault Refusal :=
  .next (executeCommand .readQ readQEffect p s)

/-- TIME (R110). -/
def execTime (p : Master) (s : State) : Host.Outcome State Fault Refusal :=
  .next (executeCommand .time timeEffect p s)

/-- NOTICE (R162). -/
def execNotice (p : Master) (s : State) : Host.Outcome State Fault Refusal :=
  .next (executeCommand .notice noticeEffect p s)

/-- UNDEFINED_CODE (R166). -/
def execUndefinedCode (p : Master) (s : State) : Host.Outcome State Fault Refusal :=
  .next (executeUndefined p s)

end Sys2Proof.Machine
end

