-- ==== Sys2Proof/Machine/Resets.lean ====
section
/-! DEFINITION. The two resets and their releases: HUB_RESET, HUB_RESET_RELEASE, PORT_RESET,
PORT_RESET_RELEASE (R4, R49, R50, R158, R159). -/

namespace Sys2Proof.Machine

/-- A port at hub reset: queues empty, flags clear, the data lines at zero. Its PRSTn and IACK lines stay as
they were recognised (R86, R159). -/
def hubResetPort (q : Port) : Port := { Port.reset with resetHeld := q.resetHeld, iackHeld := q.iackHeld }

/-- Hub reset (R4, R5, R18, R36, R61, R112, R129, R131, R159): every record at its hub-reset value, every
untaken change and expiry discarded, the REQ samplers idle until the release. R4 and R5 give the line fields and the held
levels of the REQ lines at the release alone: meanwhile they are low here (DESIGN CHOICE, log 24). -/
def hubResetState (s : State) : State :=
  { hubHeld := true
    inputs := { s.inputs with req := Vector.replicate 24 (Sampler.settled false), hrst := s.inputs.hrst.taken }
    trackers := Vector.replicate 32 (Tracker.reset false)
    routes := Vector.replicate 32 Route.reset
    contexts := Vector.replicate 4 Context.reset
    offers := Vector.replicate 4 none
    period := 0
    tick := 0
    settings := Settings.reset
    queues := Vector.replicate 8 []
    ports := s.ports.map hubResetPort
    pending := s.pending }

/-- HUB_RESET (R159). Without a recognised assertion of HRST waiting, nothing changes (DESIGN CHOICE, log 3). -/
def execHubReset (s : State) : Host.Outcome State Fault Refusal :=
  .next (if s.inputs.hrst.waiting true then hubResetState s else s)

/-- The level of REQ line `i` in a sample; a signal source has no line and reads low (R5, R17). -/
def sampledLine (req : BitVec 24) (i : Nat) : Bool := req.getLsbD i

/-- The release of HRST: every line is sampled once, and the sample loads the held levels and the line fields
(R4); it is no change. -/
def hubReleaseState (req : BitVec 24) (s : State) : State :=
  { s with
    hubHeld := false
    inputs := { s.inputs with
      req := Vector.ofFn (fun k => Sampler.settled (sampledLine req k.val))
      hrst := s.inputs.hrst.taken }
    trackers := Vector.ofFn (fun k => (s.trackers[k.val]).setLine (sampledLine req k.val)) }

/-- The release of HRST with every IACK assertion that waits taken as no access (R86). -/
def hubRelease (req : BitVec 24) (s : State) : State :=
  hubReleaseState req (masters.foldl ignoreIackAssertion s)

/-- HUB_RESET_RELEASE (R4, R86, R109). Without a recognised release of HRST waiting while HRST is held, nothing
changes (DESIGN CHOICE, log 3). -/
def execHubResetRelease (req : BitVec 24) (s : State) : Host.Outcome State Fault Refusal :=
  .next (if s.hubHeld = true ∧ s.inputs.hrst.waiting false = true then hubRelease req s else s)

/-- The recognised change of PRSTn of port `p` is taken, and the port is held in reset or released from it. -/
def takePrstChange (p : Master) (held : Bool) (s : State) : State :=
  (s.setInputs { s.inputs with prst := s.inputs.prst.set p.val (s.prstInput p).taken p.isLt }).updPort p
    (fun q => { q with resetHeld := held })

/-- Steps 5 and 6 of R49 and the data lines of R86: the context takes its reset values, the notice, command
and reply queues are emptied, the flags cleared, and the data lines carry zero. The port state is the one the
event has set. -/
def resetPortRecords (m : Master) (s : State) : State :=
  (s.updCtx m (fun c =>
    { c with
      maskSet := BitVec.allOnes 32, threshold := 0, nesting := .nested, lineMode := .line, missCount := 0,
      reclaimed := [] })).updPort m (fun q =>
    { q with
      notices := [], noticeOverflow := false, commands := [], replies := [], overrun := false, ackWord := 0 })

/-- The port reset of a present master, steps 1 to 7 of R49. -/
def portResetPresent (m : Master) (s : State) : State :=
  let s1 := withdraw m s
  let s2 := (s1.ctx m).stack.foldl (releaseEntry m) s1
  let s3 := bindingPassage m (setPortState m .offline s2)
  notifyOthers m (.left m) (resetPortRecords m s3)

/-- The port reset event at the master context and the port (R49, R158). While HRST is held PRSTn has no
effect (R159); for an OFFLINE master only steps 5 and 6 are taken. -/
def portResetEvent (m : Master) (s : State) : State :=
  if s.hubHeld then s
  else if s.present m then dispatchPass (portResetPresent m s)
  else resetPortRecords m s

/-- PORT_RESET (R49). Without a recognised assertion of PRSTn of the port waiting, nothing changes (DESIGN
CHOICE, log 3). While HRST is held PRSTn has no effect (R159): a recognised change of HRST is taken first, and the row
changes nothing until then (DEDUCED, log 22). -/
def execPortReset (p : Master) (s : State) : Host.Outcome State Fault Refusal :=
  .next (if !s.hrstWaits && (s.prstInput p).waiting true then portResetEvent p (takePrstChange p true s) else s)

/-- PORT_RESET_RELEASE (R50): the release, at whose recognition the window became operative again, is taken, and no
other state changes, but that an IACK
assertion still waiting starts no access (R86). Without a recognised release of PRSTn of the port waiting, nothing
changes (DESIGN CHOICE, log 3). -/
def execPortResetRelease (p : Master) (s : State) : Host.Outcome State Fault Refusal :=
  .next (if (s.prstInput p).waiting false then ignoreIackAssertion (takePrstChange p false s) p else s)

end Sys2Proof.Machine
end

