-- ==== Sys2Proof/Machine/RouteTable.lean ====
section
/-! DEFINITION. The route table's commands: BIND, UNBIND, HEIR, ROUTE, URGE, TRIG, AUTO, LIMIT, ENABLE, DISABLE
(R19 to R22, R25 to R32). -/

namespace Sys2Proof.Machine

/-- The permission of a configuration command (R19): none when permitted, else the refusal. `needsBinder`
holds for HEIR and UNBIND, which are refused STATE on an unbound route. -/
def permissionRefusal (needsBinder : Bool) (p : Master) (src : Source) (s : State) : Option Status :=
  match (s.route src).binder with
  | some m => if m = p then none else some .notOwner
  | none => if needsBinder then some .state else none

/-- A configuration command: its own answer once the caller is permitted (R19). -/
def configured (needsBinder : Bool) (p : Master) (src : Source) (s : State) (own : Answer) : Answer :=
  match permissionRefusal needsBinder p src s with
  | some st => answer st s
  | none => own

/-- BIND past the port-state check (R20). -/
def bindEffect (p : Master) (a : BitVec 8) (_b : BitVec 16) (s : State) : Answer :=
  match (s.route (sourceOf a)).binder with
  | none => answer .ok (s.updRoute (sourceOf a) (fun r => { r with binder := some p }))
  | some m => if m = p then answer .ok s else answer .notOwner s

/-- UNBIND past the port-state check (R21). -/
def unbindEffect (p : Master) (a : BitVec 8) (_b : BitVec 16) (s : State) : Answer :=
  configured true p (sourceOf a) s
    (answer .ok (s.updRoute (sourceOf a) (fun r => { r with binder := none, heir := none })))

/-- HEIR past the port-state check (R22): BADARG when the heir named is the caller. -/
def heirEffect (p : Master) (a : BitVec 8) (b : BitVec 16) (s : State) : Answer :=
  configured true p (sourceOf a) s
    (if heirOf b = some p then answer .badArg s
     else answer .ok (s.updRoute (sourceOf a) (fun r => { r with heir := heirOf b })))

/-- The offer of `src` is withdrawn when its holder is no longer a target (R25). -/
def withdrawNonTarget (src : Source) (s : State) : State :=
  match (s.tracker src).holder with
  | some m => if setHas (s.route src).targets m then s else withdrawSource src s
  | none => s

/-- ROUTE past the port-state check (R25). -/
def routeEffect (p : Master) (a : BitVec 8) (b : BitVec 16) (s : State) : Answer :=
  let src := sourceOf a
  configured false p src s
    (answer .ok (dispatchPass (withdrawNonTarget src
      ((s.updRoute src (fun r => { r with targets := targetsOf b, policy := policyOf b })).updTracker src
        (fun t => { t with passSet := 0 })))))

/-- The offer of `src` is withdrawn when its urgency is below the holder's threshold or not above the holder's
effective level (R26). -/
def withdrawUnurgent (src : Source) (s : State) : State :=
  match (s.tracker src).holder with
  | some m =>
    if (s.route src).urgency.val < (s.ctx m).threshold.val || !aboveLevel (s.route src).urgency (s.ctx m)
    then withdrawSource src s else s
  | none => s

/-- URGE past the port-state check (R26). -/
def urgeEffect (p : Master) (a : BitVec 8) (b : BitVec 16) (s : State) : Answer :=
  let src := sourceOf a
  configured false p src s
    (answer .ok (dispatchPass (withdrawUnurgent src
      (s.updRoute src (fun r => { r with urgency := urgencyOf b })))))

/-- TRIG may not change the source now: it is enabled, OFFERED or INSERVICE (R27). -/
def trigBusy (src : Source) (s : State) : Bool :=
  (s.route src).enabled || ((s.tracker src).state == .offered) || ((s.tracker src).state == .inService)

/-- TRIG past the port-state check (R27, R28): BUSY, then BADCOMBO, else the trigger is set and the pending
state recomputed; a source that goes from IDLE to PENDING starts a pass. -/
def trigEffect (p : Master) (a : BitVec 8) (b : BitVec 16) (s : State) : Answer :=
  let src := sourceOf a
  configured false p src s
    (if trigBusy src s then answer .busy s
     else if triggerOf b = .level ∧ (s.route src).autodone = true then answer .badCombo s
     else
       let s1 := (s.updRoute src (fun r => { r with trigger := triggerOf b })).updTracker src
         (fun t => t.retrigger (triggerOf b))
       answer .ok
         (if (s.tracker src).state = .idle ∧ (s1.tracker src).state = .pending then dispatchPass s1 else s1))

/-- AUTO past the port-state check (R29): BUSY in service, BADCOMBO for on with LEVEL. -/
def autoEffect (p : Master) (a : BitVec 8) (b : BitVec 16) (s : State) : Answer :=
  let src := sourceOf a
  configured false p src s
    (if (s.tracker src).state = .inService then answer .busy s
     else if b = 1 ∧ (s.route src).trigger = .level then answer .badCombo s
     else answer .ok (s.updRoute src (fun r => { r with autodone := b == 1 })))

/-- LIMIT past the port-state check (R30). -/
def limitEffect (p : Master) (a : BitVec 8) (b : BitVec 16) (s : State) : Answer :=
  configured false p (sourceOf a) s
    (answer .ok (s.updRoute (sourceOf a) (fun r => { r with limitClass := classOf b })))

/-- ENABLE past the port-state check (R31). -/
def enableEffect (p : Master) (a : BitVec 8) (_b : BitVec 16) (s : State) : Answer :=
  configured false p (sourceOf a) s
    (answer .ok (dispatchPass (s.updRoute (sourceOf a) (fun r => { r with enabled := true }))))

/-- DISABLE past the port-state check (R32): the offer of the source is withdrawn and a pass starts; a source
that holds no offer starts none (R69). -/
def disableEffect (p : Master) (a : BitVec 8) (_b : BitVec 16) (s : State) : Answer :=
  let src := sourceOf a
  let s1 := s.updRoute src (fun r => { r with enabled := false })
  configured false p src s
    (answer .ok
      (if (s.tracker src).state = .offered then dispatchPass (withdrawSource src s1) else s1))

/-- BIND (R20). -/
def execBind (p : Master) (s : State) : Host.Outcome State Fault Refusal :=
  .next (executeCommand .bind bindEffect p s)

/-- UNBIND (R21). -/
def execUnbind (p : Master) (s : State) : Host.Outcome State Fault Refusal :=
  .next (executeCommand .unbind unbindEffect p s)

/-- HEIR (R22). -/
def execHeir (p : Master) (s : State) : Host.Outcome State Fault Refusal :=
  .next (executeCommand .heir heirEffect p s)

/-- ROUTE (R25). -/
def execRoute (p : Master) (s : State) : Host.Outcome State Fault Refusal :=
  .next (executeCommand .route routeEffect p s)

/-- URGE (R26). -/
def execUrge (p : Master) (s : State) : Host.Outcome State Fault Refusal :=
  .next (executeCommand .urge urgeEffect p s)

/-- TRIG (R27, R28). -/
def execTrig (p : Master) (s : State) : Host.Outcome State Fault Refusal :=
  .next (executeCommand .trig trigEffect p s)

/-- AUTO (R29). -/
def execAuto (p : Master) (s : State) : Host.Outcome State Fault Refusal :=
  .next (executeCommand .auto autoEffect p s)

/-- LIMIT (R30). -/
def execLimit (p : Master) (s : State) : Host.Outcome State Fault Refusal :=
  .next (executeCommand .limit limitEffect p s)

/-- ENABLE (R31). -/
def execEnable (p : Master) (s : State) : Host.Outcome State Fault Refusal :=
  .next (executeCommand .enable enableEffect p s)

/-- DISABLE (R32). -/
def execDisable (p : Master) (s : State) : Host.Outcome State Fault Refusal :=
  .next (executeCommand .disable disableEffect p s)

end Sys2Proof.Machine
end

