-- ==== Sys2Proof/Machine/Service.lean ====
section
/-! DEFINITION. Declining, taking and completing by command: PASS, TAKE, POLL, DONE, DONESRC (R81, R87, R90, R91,
R98, R100). -/

namespace Sys2Proof.Machine

/-- PASS past the port-state check (R81). -/
def passEffect (p : Master) (_a : BitVec 8) (_b : BitVec 16) (s : State) : Answer :=
  match s.offer p with
  | some o => answer .ok (dispatchPass (lapseOffer p o s))
  | none => answer .none s

/-- A take by command: the reply carries the take word, and the pass of the take is its last step (R87, R91, R94). -/
def takeAnswer (p : Master) (src : Source) (via : Via) (s : State) : Answer :=
  answerData [takeWord (newEntry s src via)] (dispatchPass (takeSource p src via s))

/-- TAKE past the port-state check (R87). -/
def takeEffect (p : Master) (_a : BitVec 8) (_b : BitVec 16) (s : State) : Answer :=
  match s.offer p with
  | some o => takeAnswer p o.source .take s
  | none => answer .none s

/-- A PENDING source that POLL may take for `p` (R90). -/
def pollCandidate (s : State) (p : Master) (src : Source) : Bool :=
  ((s.tracker src).state == .pending) && (s.route src).enabled && eligibleToPoll s src p

/-- What POLL finds among the candidates of urgency `u`: the caller's own offer first, else the lowest source
number (R91). -/
def pollAt (s : State) (p : Master) (u : Urgency) : Option Source :=
  match s.offer p with
  | some o =>
    if (s.route o.source).urgency = u then some o.source
    else sources.find? (fun src => ((s.route src).urgency == u) && pollCandidate s p src)
  | none => sources.find? (fun src => ((s.route src).urgency == u) && pollCandidate s p src)

/-- The source POLL takes, most urgent first (R91). -/
def pollChoice (s : State) (p : Master) : Option Source := urgencies.findSome? (pollAt s p)

/-- POLL past the port-state check (R90, R91). -/
def pollEffect (p : Master) (_a : BitVec 8) (_b : BitVec 16) (s : State) : Answer :=
  match pollChoice s p with
  | some src => takeAnswer p src .poll s
  | none => answer .none s

/-- DONE past the port-state check (R98). -/
def doneEffect (p : Master) (_a : BitVec 8) (_b : BitVec 16) (s : State) : Answer :=
  match (s.ctx p).stack.getLast? with
  | some e => answer .ok (dispatchPass (completeEntry p e.source s))
  | none => answer .notHeld s

/-- DONESRC past the port-state check (R100): the stack is consulted first, then the reclaimed list. -/
def doneSrcEffect (p : Master) (a : BitVec 8) (_b : BitVec 16) (s : State) : Answer :=
  let src := sourceOf a
  if (s.ctx p).stack.any (fun e => e.source == src) then answer .ok (dispatchPass (completeEntry p src s))
  else if src ∈ (s.ctx p).reclaimed then
    answer .late (s.updCtx p (fun c => { c with reclaimed := c.reclaimed.filter (· != src) }))
  else answer .notHeld s

/-- PASS (R81). -/
def execPass (p : Master) (s : State) : Host.Outcome State Fault Refusal :=
  .next (executeCommand .pass passEffect p s)

/-- TAKE (R87). -/
def execTake (p : Master) (s : State) : Host.Outcome State Fault Refusal :=
  .next (executeCommand .take takeEffect p s)

/-- POLL (R90). -/
def execPoll (p : Master) (s : State) : Host.Outcome State Fault Refusal :=
  .next (executeCommand .poll pollEffect p s)

/-- DONE (R98). -/
def execDone (p : Master) (s : State) : Host.Outcome State Fault Refusal :=
  .next (executeCommand .done doneEffect p s)

/-- DONESRC (R100). -/
def execDoneSrc (p : Master) (s : State) : Host.Outcome State Fault Refusal :=
  .next (executeCommand .doneSrc doneSrcEffect p s)

end Sys2Proof.Machine
end

