-- ==== Sys2Proof/Machine/Signals.lean ====
section
/-! DEFINITION. The signal queues' commands: RAISE, FLUSH (R133, R134, R138, R139). -/

namespace Sys2Proof.Machine

/-- RAISE past the port-state check (R133, R134): FULL on four entries; else the entry is appended, and an
IDLE source becomes PENDING and starts a pass. -/
def raiseEffect (p : Master) (a : BitVec 8) (b : BitVec 16) (s : State) : Answer :=
  let g := signalOf a
  let src := signalSource g
  if (s.queue g).length < Config.signalDepth then
    let s1 := s.setQueue g (s.queue g ++ [{ sender := p, payload := b }])
    answer .ok
      (if (s.tracker src).state = .idle then
        dispatchPass (s1.updTracker src (fun t => { t with state := .pending }))
       else s1)
  else answer .full s

/-- The effect of a permitted FLUSH by the state of the source (R139). -/
def flushQueue (g : SignalIndex) (s : State) : State :=
  match (s.tracker (signalSource g)).state with
  | .idle => s
  | .pending => (s.setQueue g []).updTracker (signalSource g) Tracker.toIdle
  | .offered => s.setQueue g ((s.queue g).take 1)
  | .inService => s.setQueue g ((s.queue g).take 1)

/-- FLUSH past the port-state check (R138, R139): a configuration command of the route of source 24 + g. -/
def flushEffect (p : Master) (a : BitVec 8) (_b : BitVec 16) (s : State) : Answer :=
  configured false p (signalSource (signalOf a)) s (answer .ok (flushQueue (signalOf a) s))

/-- RAISE (R133). -/
def execRaise (p : Master) (s : State) : Host.Outcome State Fault Refusal :=
  .next (executeCommand .raise raiseEffect p s)

/-- FLUSH (R138). -/
def execFlush (p : Master) (s : State) : Host.Outcome State Fault Refusal :=
  .next (executeCommand .flush flushEffect p s)

end Sys2Proof.Machine
end

