-- ==== Sys2Proof/Machine/Window.lean ====
section
/-! DEFINITION. The port window and the acknowledge strobe: CMD_WRITE, RPL_READ, WINDOW_WRITE_IGNORED, ACK_READ,
IACK_PULSE, IACK_RELEASE (R85, R86, R146 to R148, R152, R153, R156). -/

namespace Sys2Proof.Machine

/-- One acknowledge access of port `p`: the take word and the state after it (R85, R86, R93 to R96). -/
def acknowledge (p : Master) (s : State) : Word × State :=
  match s.offer p with
  | some o => (takeWord (newEntry s o.source .ack), dispatchPass (takeSource p o.source .ack s))
  | none => (noneTakeWord, s)

/-- A bus read of the window of port `p` that by itself returns `own` and leaves `t`. It is answered zero while a
reset is held, and with the take word of the pulse while IACK is asserted, as recognised; either leaves the hub as
it is (R50, R86, R156). Until a recognised assertion is taken, its take word does not stand and the read waits for
it: nothing changes (DESIGN CHOICE, logs 3 and 10). -/
def busRead (p : Master) (own : Word) (t s : State) : State :=
  if windowHeld s p then returnRead p 0 s
  else if (s.iackInput p).level then
    if (s.port p).iackHeld then returnRead p (s.port p).ackWord s else s
  else returnRead p own t

/-- A read of the window of port `p` is what its offset says: no reset is held and IACK is released, as recognised
(R50, R86, R156). -/
def readsOpen (s : State) (p : Master) : Bool := !windowHeld s p && !(s.iackInput p).level

/-- ACK_READ (R85): one acknowledge access, while the window is operative and IACK is released. A recognised reset of
another port is taken before an access that takes an offer, which waits for it and changes nothing (DEDUCED, log 22). -/
def execAckRead (p : Master) (s : State) : Host.Outcome State Fault Refusal :=
  .next (if readsOpen s p && s.resetWaits && (s.offer p).isSome then s else busRead p (acknowledge p s).1 (acknowledge p s).2 s)

/-- CMD_WRITE (R147, R148): the word is appended, or discarded with the overrun flag set when the queue is
full; ignored while a reset is held (R50). -/
def execCmdWrite (p : Master) (w : Word) (s : State) : Host.Outcome State Fault Refusal :=
  .next (if windowHeld s p then s
    else if (s.port p).commands.length < Config.commandDepth then
      s.updPort p (fun q => { q with commands := q.commands ++ [w] })
    else s.updPort p (fun q => { q with overrun := true }))

/-- RPL_READ (R152, R153): the oldest reply word is removed and returned, or the EMPTY header when there is
none, while the window is operative and IACK is released. -/
def execRplRead (p : Master) (s : State) : Host.Outcome State Fault Refusal :=
  .next (match (s.port p).replies with
    | [] => busRead p emptyHeader s s
    | w :: rest => busRead p w (s.updPort p (fun q => { q with replies := rest })) s)

/-- WINDOW_WRITE_IGNORED (R146): a write to PSTAT, ACK or offset 0CH changes nothing. -/
def execWindowWriteIgnored (_p : Master) (_offset : BitVec 2) (_w : Word) (s : State) :
    Host.Outcome State Fault Refusal :=
  .next s

/-- IACK_PULSE (R86): one acknowledge access, whose take word the data lines carry for the pulse; no access
while a reset is held, nor when its release is recognised and waits (R86). Without a recognised assertion of IACK waiting, nothing changes (DESIGN CHOICE, log 3), and a
recognised reset of another port is taken before the access (DEDUCED, log 22). -/
def execIackPulse (p : Master) (s : State) : Host.Outcome State Fault Refusal :=
  .next (if (s.iackInput p).waiting true then
      if iackIgnored s p then takeIackChange p true 0 s
      else if s.resetWaits then s
      else takeIackChange p true (acknowledge p s).1 (acknowledge p s).2
    else s)

/-- IACK_RELEASE (R86): the data lines no longer carry a take word, and the next recognised assertion begins a
new access. Without a recognised release of IACK waiting, nothing changes (DESIGN CHOICE, log 3). -/
def execIackRelease (p : Master) (s : State) : Host.Outcome State Fault Refusal :=
  .next (if (s.iackInput p).waiting false then takeIackChange p false 0 s else s)

end Sys2Proof.Machine
end

