-- ==== Sys2Proof/Machine/Dispatch.lean ====
section
/-! DEFINITION. One arm per row of spec/opcode_table.json, in the table's order, each one call of the row's meaning. -/

namespace Sys2Proof.Machine

/-- The effect of a command on everything but the queue of waiting commands. -/
def exec (i : Instr) (s : State) : Host.Outcome State Fault Refusal :=
  match i with
  | .rise n => Sys2Proof.Machine.execRise n s
  | .fall n => Sys2Proof.Machine.execFall n s
  | .hubReset => Sys2Proof.Machine.execHubReset s
  | .hubResetRelease req => Sys2Proof.Machine.execHubResetRelease req s
  | .portReset p => Sys2Proof.Machine.execPortReset p s
  | .portResetRelease p => Sys2Proof.Machine.execPortResetRelease p s
  | .iackPulse p => Sys2Proof.Machine.execIackPulse p s
  | .ackRead p => Sys2Proof.Machine.execAckRead p s
  | .cmdWrite p w => Sys2Proof.Machine.execCmdWrite p w s
  | .rplRead p => Sys2Proof.Machine.execRplRead p s
  | .windowWriteIgnored p offset w => Sys2Proof.Machine.execWindowWriteIgnored p offset w s
  | .tick sm => Sys2Proof.Machine.execTick sm s
  | .offerExpiry m => Sys2Proof.Machine.execOfferExpiry m s
  | .deadlineExpiry m src => Sys2Proof.Machine.execDeadlineExpiry m src s
  | .join p => Sys2Proof.Machine.execJoin p s
  | .leave p => Sys2Proof.Machine.execLeave p s
  | .fence p => Sys2Proof.Machine.execFence p s
  | .unfence p => Sys2Proof.Machine.execUnfence p s
  | .mask p => Sys2Proof.Machine.execMask p s
  | .unmask p => Sys2Proof.Machine.execUnmask p s
  | .thresh p => Sys2Proof.Machine.execThresh p s
  | .nest p => Sys2Proof.Machine.execNest p s
  | .openMode p => Sys2Proof.Machine.execOpen p s
  | .quiet p => Sys2Proof.Machine.execQuiet p s
  | .loud p => Sys2Proof.Machine.execLoud p s
  | .setClass p => Sys2Proof.Machine.execSetClass p s
  | .setOffer p => Sys2Proof.Machine.execSetOffer p s
  | .setFence p => Sys2Proof.Machine.execSetFence p s
  | .bind p => Sys2Proof.Machine.execBind p s
  | .unbind p => Sys2Proof.Machine.execUnbind p s
  | .heir p => Sys2Proof.Machine.execHeir p s
  | .route p => Sys2Proof.Machine.execRoute p s
  | .urge p => Sys2Proof.Machine.execUrge p s
  | .trig p => Sys2Proof.Machine.execTrig p s
  | .auto p => Sys2Proof.Machine.execAuto p s
  | .limit p => Sys2Proof.Machine.execLimit p s
  | .enable p => Sys2Proof.Machine.execEnable p s
  | .disable p => Sys2Proof.Machine.execDisable p s
  | .flush p => Sys2Proof.Machine.execFlush p s
  | .raise p => Sys2Proof.Machine.execRaise p s
  | .pass p => Sys2Proof.Machine.execPass p s
  | .take p => Sys2Proof.Machine.execTake p s
  | .poll p => Sys2Proof.Machine.execPoll p s
  | .done p => Sys2Proof.Machine.execDone p s
  | .doneSrc p => Sys2Proof.Machine.execDoneSrc p s
  | .status p => Sys2Proof.Machine.execStatus p s
  | .readStack p => Sys2Proof.Machine.execReadStack p s
  | .readSrc p => Sys2Proof.Machine.execReadSrc p s
  | .readRoute p => Sys2Proof.Machine.execReadRoute p s
  | .readQ p => Sys2Proof.Machine.execReadQ p s
  | .time p => Sys2Proof.Machine.execTime p s
  | .notice p => Sys2Proof.Machine.execNotice p s
  | .undefinedCode p => Sys2Proof.Machine.execUndefinedCode p s
  | .iackRelease p => Sys2Proof.Machine.execIackRelease p s
  | .trefPeriod sm => Sys2Proof.Machine.execTrefPeriod sm s

end Sys2Proof.Machine
end

