-- ==== Sys2Proof/Safety.lean ====
section
/-! DEFINITION. What the spec promises of every reachable state: the invariants the statements are made of, each
with its rules. -/

namespace Sys2Proof.Safety

open Sys2Proof.Machine

/-- Every queue of a port is within its size (R147, R152, R160). -/
def PortQueuesBounded (s : State) : Prop :=
  ∀ p : Master, (s.port p).commands.length ≤ 4 ∧ (s.port p).replies.length ≤ 16 ∧ (s.port p).notices.length ≤ 8

/-- Every signal queue is within its size (R131, R132). -/
def SignalQueuesBounded (s : State) : Prop := ∀ g : SignalIndex, (s.queue g).length ≤ 4

/-- Every reclaimed list is within its size (R119). -/
def ReclaimedBounded (s : State) : Prop := ∀ m : Master, (s.ctx m).reclaimed.length ≤ 8

/-- The holder is present exactly when the state is OFFERED or INSERVICE (R7). -/
def HolderPresent (s : State) : Prop :=
  ∀ src : Source, (s.tracker src).holder.isSome = true ↔
    ((s.tracker src).state = .offered ∨ (s.tracker src).state = .inService)

/-- A binder is ONLINE or LEAVING; an heir stands beside a binder it differs from (R23). -/
def BindersPresent (s : State) : Prop :=
  ∀ src : Source,
    (∀ m, (s.route src).binder = some m →
      (s.ctx m).portState = .online ∨ (s.ctx m).portState = .leaving) ∧
    (∀ h, (s.route src).heir = some h → ∃ m, (s.route src).binder = some m ∧ m ≠ h)

/-- A non-empty offer record belongs to an ONLINE master in LINE mode (R78). -/
def OffersOnline (s : State) : Prop :=
  ∀ m : Master, (s.offer m).isSome = true → (s.ctx m).portState = .online ∧ (s.ctx m).lineMode = .line

/-- An OFFLINE or FENCED master has an empty stack and a miss count of 0 (R37, R122). -/
def AwayStackEmpty (s : State) : Prop :=
  ∀ m : Master, (s.ctx m).portState = .offline ∨ (s.ctx m).portState = .fenced →
    (s.ctx m).stack = [] ∧ (s.ctx m).missCount = 0

/-- An OFFLINE master has an empty notice queue, a clear notice-overflow flag and an empty reclaimed list (R41,
R160). -/
def OfflineCleared (s : State) : Prop :=
  ∀ m : Master, (s.ctx m).portState = .offline →
    (s.port m).notices = [] ∧ (s.port m).noticeOverflow = false ∧ (s.ctx m).reclaimed = []

/-- Offer records and trackers name the same pairs (R62). -/
def OffersMatch (s : State) : Prop :=
  (∀ m o, s.offer m = some o →
    (s.tracker o.source).state = .offered ∧ (s.tracker o.source).holder = some m) ∧
  (∀ src, (s.tracker src).state = .offered →
    ∃ m o, (s.tracker src).holder = some m ∧ s.offer m = some o ∧ o.source = src)

/-- Stack entries and INSERVICE trackers name the same pairs, and a stack holds at most one entry for a source
(R6, R7). -/
def StacksMatch (s : State) : Prop :=
  (∀ m, ∀ e ∈ (s.ctx m).stack,
    (s.tracker e.source).state = .inService ∧ (s.tracker e.source).holder = some m) ∧
  (∀ src, (s.tracker src).state = .inService →
    ∃ m, (s.tracker src).holder = some m ∧ ∃ e ∈ (s.ctx m).stack, e.source = src) ∧
  (∀ m, ((s.ctx m).stack.map (·.source)).Nodup)

/-- A signal source is IDLE exactly when its queue is empty (R132). -/
def SignalIdleIffEmpty (s : State) : Prop :=
  ∀ g : SignalIndex, (s.tracker (signalSource g)).state = .idle ↔ s.queue g = []

/-- The flags of R8: again only in service, merged in service only beside again, neither for a signal source
or a LEVEL source, and an IDLE source has both clear and an empty pass set (R8, R16). -/
def FlagsRegular (s : State) : Prop :=
  ∀ src : Source,
    ((s.tracker src).again = true → (s.tracker src).state = .inService) ∧
    ((s.tracker src).state = .inService → (s.tracker src).merged = true → (s.tracker src).again = true) ∧
    ((isLineSource src = false ∨ (s.route src).trigger = .level) →
      (s.tracker src).merged = false ∧ (s.tracker src).again = false) ∧
    ((s.tracker src).state = .idle → (s.tracker src).merged = false ∧ (s.tracker src).passSet = 0)

/-- No LEVEL source has autodone on, and a signal source's trigger is EDGE (R18, R27, R29). -/
def RoutesRegular (s : State) : Prop :=
  ∀ src : Source, ((s.route src).trigger = .level → (s.route src).autodone = false) ∧
    (isLineSource src = false → (s.route src).trigger = .edge)

/-- A reclaimed list has no duplicates and shares no source with the master's stack (R119). -/
def ReclaimedApart (s : State) : Prop :=
  ∀ m : Master, (s.ctx m).reclaimed.Nodup ∧ ∀ e ∈ (s.ctx m).stack, e.source ∉ (s.ctx m).reclaimed

/-- The fence threshold is 1 to 7, and a present member's miss count is below it (R112, R122). -/
def MissesBelowThreshold (s : State) : Prop :=
  (1 ≤ s.settings.fenceThreshold ∧ s.settings.fenceThreshold ≤ 7) ∧
  ∀ m : Master, (s.ctx m).missCount < s.settings.fenceThreshold

/-- Every standing offer is of an enabled source that is eligible for its holder (R70, R89). -/
def OffersQualify (s : State) : Prop :=
  ∀ m o, s.offer m = some o → (s.route o.source).enabled = true ∧ eligible s o.source m = true

/-- Urgencies at take strictly increase in the stack of a NESTED master (R56). -/
def NestedRising (s : State) : Prop :=
  ∀ m : Master, (s.ctx m).nesting = .nested → ((s.ctx m).stack.map (·.urgency)).Pairwise (· < ·)

/-- A stack holds at most 8 entries (R37). -/
def StacksBounded (s : State) : Prop := ∀ m : Master, (s.ctx m).stack.length ≤ 8

/-- For every offerable source and every master it is eligible for, the master's offer record holds a source
at least as urgent (R77). -/
def NoneWaitsBeforeFreeSlot (s : State) : Prop :=
  ∀ src m, offerable s src = true → eligible s src m = true →
    ∃ o, s.offer m = some o ∧ (s.route src).urgency ≤ (s.route o.source).urgency

/-- A port whose reset is taken, with no change of the input recognised since, has an OFFLINE master, empty queues and
clear flags (R50, R158, R159). -/
def HeldPortCleared (s : State) : Prop :=
  ∀ p : Master, (s.hubHeld = true ∧ s.inputs.hrst.change = false) ∨
      ((s.port p).resetHeld = true ∧ (s.prstInput p).change = false) →
    (s.ctx p).portState = .offline ∧ (s.port p).commands = [] ∧ (s.port p).replies = [] ∧
    (s.port p).overrun = false ∧ (s.port p).ackWord = 0

/-- What the hub has taken of each input is the level recognised, or its opposite while a change to that level
waits: so the taken changes of an input alternate (R3, R5, R49, R86, R159). -/
def InputsFollowed (s : State) : Prop :=
  (∀ n : Line, (s.tracker (lineSource n)).line = ((s.reqLine n).level != (s.reqLine n).change)) ∧
  (∀ p : Master,
    (s.port p).resetHeld = ((s.prstInput p).level != (s.prstInput p).change) ∧
    (s.port p).iackHeld = ((s.iackInput p).level != (s.iackInput p).change)) ∧
  s.hubHeld = (s.inputs.hrst.level != s.inputs.hrst.change)

/-- Every invariant at once. -/
structure Consistent (s : State) : Prop where
  portQueues     : PortQueuesBounded s
  signalQueues   : SignalQueuesBounded s
  reclaimedSize  : ReclaimedBounded s
  holders        : HolderPresent s
  binders        : BindersPresent s
  offersOnline   : OffersOnline s
  awayStack      : AwayStackEmpty s
  offlineCleared : OfflineCleared s
  offersMatch    : OffersMatch s
  stacksMatch    : StacksMatch s
  signalIdle     : SignalIdleIffEmpty s
  flags          : FlagsRegular s
  routes         : RoutesRegular s
  reclaimedApart : ReclaimedApart s
  misses         : MissesBelowThreshold s
  offersQualify  : OffersQualify s
  nested         : NestedRising s
  stackSize      : StacksBounded s
  noneWaits      : NoneWaitsBeforeFreeSlot s
  heldPorts      : HeldPortCleared s
  inputsFollowed : InputsFollowed s

/-! What the statements are written with: a command word that is ready, its reply, and what each event leaves
before its dispatch pass, field by field. -/

/-- A recognised change of HRST waits for HUB_RESET or HUB_RESET_RELEASE, taken at the recognition (R4, R159). -/
abbrev HrstWaits (s : State) : Prop := s.inputs.hrst.change = true

/-- A recognised assertion of PRSTn of port `p` waits for PORT_RESET, whose reset is taken at the recognition (R49). -/
abbrev PortResetWaits (s : State) (p : Master) : Prop :=
  (s.prstInput p).level = true ∧ (s.prstInput p).change = true

/-- No recognised reset, and no recognised release of HRST, waits to be taken before every other event (R4, R49, R159;
DEDUCED, log 22). -/
abbrev NoResetWaits (s : State) : Prop := ¬ HrstWaits s ∧ ∀ p, ¬ PortResetWaits s p

/-- The word of code `code` with operands `a` and `b` heads the command queue of port `p`, the reply queue has room
for `words` more words (R149, R150, R165), and no recognised reset waits to be taken first (R49, R159). -/
def HeadReady (s : State) (p : Master) (code a b words : Nat) : Prop :=
  (s.port p).commands.head? =
      some (commandWord (BitVec.ofNat 8 code) (BitVec.ofNat 8 a) (BitVec.ofNat 16 b)) ∧
    (s.port p).replies.length + words ≤ 16 ∧ NoResetWaits s

/-- Port `q` once its head word is answered: the word gone, the whole reply appended, the overrun flag carried
and cleared (R148, R149, R152). -/
def repliedPort (q : Port) (code : Nat) (st : Status) (data : List Word) (lost : Bool) : Port :=
  { q with
    commands := q.commands.tail
    replies := q.replies ++ headerWord (BitVec.ofNat 8 code) st data.length q.overrun lost :: data
    overrun := false }

/-- `s` with the head word of port `p` answered; every other record as in `s`. -/
def replied (s : State) (p : Master) (code : Nat) (st : Status) (data : List Word) : State :=
  s.setPort p (repliedPort (s.port p) code st data false)

/-- A port to which a notice has come: appended, or lost with the overflow flag set (R160, R161). -/
def noticedPort (n : Notice) (q : Port) : Port :=
  if q.notices.length < 8 then { q with notices := q.notices ++ [n] } else { q with noticeOverflow := true }

/-- A port to which the notices `l` have come in order. -/
def noticedAll (l : List Notice) (q : Port) : Port := l.foldl (fun q n => noticedPort n q) q

/-- A tracker whose offer is withdrawn (R63). -/
def waiting (t : Tracker) : Tracker := { t with state := .pending, holder := none }

/-- The tracker of a source gone to IDLE (R7, R8, R16). -/
def idled (t : Tracker) : Tracker :=
  { t with state := .idle, holder := none, merged := false, again := false, passSet := 0 }

/-- A reclaimed list with `src` placed in it as newest, the oldest dropped from a full one (R119). -/
def placedNewest (src : Source) (l : List Source) : List Source :=
  if l.length < 8 then l ++ [src] else l.tail ++ [src]

/-- `s` with the offer of `m` withdrawn, where it holds one (R63). -/
def withdrawnOffer (s : State) (m : Master) : State :=
  match s.offer m with
  | some o => (s.setTracker o.source (waiting (s.tracker o.source))).setOffer m none
  | none => s

/-- The source is an edge line source: a number 0 to 23 under the EDGE trigger (R1). -/
def isEdgeLine (r : Route) (src : Source) : Prop := src.val < 24 ∧ r.trigger = .edge

/-- `t` is tracker `r0` of `src` after a reclaim or a release (R15), its pass set apart. -/
def Interrupted (r : Route) (src : Source) (t u : Tracker) : Prop :=
  u.state = .pending ∧ u.holder = none ∧ u.line = t.line ∧
    (isEdgeLine r src → u.merged = (t.merged || t.again) ∧ u.again = false) ∧
    (¬ isEdgeLine r src → u.merged = t.merged ∧ u.again = t.again)

/-- A route when binding passage of `m` has run (R23): the heir takes over when it is ONLINE, else the route is
unbound. -/
def passedRoute (m : Master) (online : Master → Bool) (r : Route) : Route :=
  if r.binder = some m then
    match r.heir with
    | some h => if online h then { r with binder := some h, heir := none } else { r with binder := none, heir := none }
    | none => { r with binder := none }
  else r

/-- The masters that can inherit from a departing `m`: the others that are ONLINE. -/
def canInherit (s : State) (m k : Master) : Bool := (k != m) && s.online k

/-- The INHERITED notices of the passage of `m` that go to `k`, in ascending source number (R23, R24). -/
def inheritedNotices (s : State) (m k : Master) : List Notice :=
  (sources.filter (fun src =>
    ((s.route src).binder == some m) && ((s.route src).heir == some k) && canInherit s m k)).map .inherited

/-- What a departure of `m` announced by `n` leaves at the routes and at the ports of the others (R23, R24, R52):
the INHERITED notices stand before the notice `n`, which comes to every other present master. -/
def Announced (m : Master) (n : Notice) (s u : State) : Prop :=
  (∀ src, u.route src = passedRoute m (canInherit s m) (s.route src)) ∧
    ∀ k, k ≠ m → u.port k =
      noticedAll (inheritedNotices s m k ++ if s.present k then [n] else []) (s.port k)

/-- The records no delivery or membership event reaches: lines, timebase, hub settings and the command queue. -/
def SameTimebase (s u : State) : Prop :=
  u.hubHeld = s.hubHeld ∧ u.inputs = s.inputs ∧ u.period = s.period ∧ u.tick = s.tick ∧ u.settings = s.settings ∧
    u.pending = s.pending

/-- All of the end of leaving of `m`, its pass apart (R43): `s` before it, `u` after it. -/
def LeavingEnded (m : Master) (s u : State) : Prop :=
  u.ctx m = { s.ctx m with portState := .offline, reclaimed := [], missCount := 0 } ∧
    (∀ k, k ≠ m → u.ctx k = s.ctx k) ∧
    u.port m = { s.port m with notices := [], noticeOverflow := false } ∧
    Announced m (.left m) s u ∧
    u.trackers = s.trackers ∧ u.offers = s.offers ∧ u.queues = s.queues ∧ SameTimebase s u

/-- All of the fencing procedure for `m`, its pass apart (R46): `s` before it, `u` after it. -/
def Fenced (m : Master) (s u : State) : Prop :=
  u.ctx m =
      { s.ctx m with
        portState := .fenced, stack := [], missCount := 0,
        reclaimed := ((s.ctx m).stack.map (·.source)).foldl (fun l src => placedNewest src l)
          (s.ctx m).reclaimed } ∧
    (∀ k, k ≠ m → u.ctx k = s.ctx k) ∧
    u.offer m = none ∧ (∀ k, k ≠ m → u.offer k = s.offer k) ∧
    (∀ e ∈ (s.ctx m).stack,
      Interrupted (s.route e.source) e.source (s.tracker e.source) (u.tracker e.source) ∧
      (u.tracker e.source).passSet = setAdd (s.tracker e.source).passSet m) ∧
    (∀ src, (∀ e ∈ (s.ctx m).stack, e.source ≠ src) →
      u.tracker src =
        if (s.offer m).map (·.source) = some src then waiting (s.tracker src) else s.tracker src) ∧
    u.port m =
      noticedAll ((s.ctx m).stack.map (fun e => .reclaimed e.source false)) (s.port m) ∧
    Announced m (.fenced m) s u ∧ u.queues = s.queues ∧ SameTimebase s u

/-- All of the port reset of the present master `m`, its pass and its inputs apart (R49, R158), with zero on the
data lines (R86, log 10): `s` before it, `u` after it. -/
def PortReset (m : Master) (s u : State) : Prop :=
  u.ctx m = Context.reset ∧ (∀ k, k ≠ m → u.ctx k = s.ctx k) ∧
    u.offer m = none ∧ (∀ k, k ≠ m → u.offer k = s.offer k) ∧
    (∀ e ∈ (s.ctx m).stack,
      Interrupted (s.route e.source) e.source (s.tracker e.source) (u.tracker e.source) ∧
      (u.tracker e.source).passSet = (s.tracker e.source).passSet) ∧
    (∀ src, (∀ e ∈ (s.ctx m).stack, e.source ≠ src) →
      u.tracker src =
        if (s.offer m).map (·.source) = some src then waiting (s.tracker src) else s.tracker src) ∧
    u.port m =
      { s.port m with
        commands := [], replies := [], notices := [], overrun := false, noticeOverflow := false,
        resetHeld := true, ackWord := 0 } ∧
    Announced m (.left m) s u ∧ u.queues = s.queues ∧
    u.hubHeld = s.hubHeld ∧ u.period = s.period ∧ u.tick = s.tick ∧ u.settings = s.settings ∧ u.pending = s.pending

/-- The due tick of an entry pushed in `s` for `src` (R93, R112, R114). -/
def dueAtTake (s : State) (src : Source) : Option Tick :=
  if (s.route src).limitClass = 0 then none
  else some (s.tick +
    if (s.route src).limitClass = 1 then s.settings.class1.setWidth 32
    else if (s.route src).limitClass = 2 then s.settings.class2.setWidth 32
    else s.settings.class3.setWidth 32)

/-- The entry, and the fields of the take word, of a take of `src` in `s` (R93). -/
def entryAtTake (s : State) (src : Source) (via : Via) : Entry :=
  { source := src, urgency := (s.route src).urgency, via := via, due := dueAtTake s src,
    merged := (s.tracker src).merged,
    signal := if h : 24 ≤ src.val then (s.queue ⟨src.val - 24, by omega⟩).head? else none,
    raised := false }

/-- The effects of every take of `src` by `m` (R94, steps 1 to 4): merged cleared, last set, the source out of the
reclaimed list, and the taker's offer record emptied when it names the source. -/
def takeNoted (s : State) (m : Master) (src : Source) : State :=
  (((s.setTracker src { s.tracker src with merged := false }).setRoute src
    { s.route src with last := m }).setCtx m
    { s.ctx m with reclaimed := (s.ctx m).reclaimed.filter (· ≠ src) }).setOffer m
    (if (s.offer m).map (·.source) = some src then none else s.offer m)

/-- `u` is `s` after the take of `src` by `m`, its pass apart (R93 to R95): with autodone off the source is
INSERVICE and its entry is the newest; with autodone on an edge line source goes to rest, and a signal source
loses the head of its queue and rests by what remains. -/
def Taken (s : State) (m : Master) (src : Source) (via : Via) (u : State) : Prop :=
  ((s.route src).autodone = false →
    u = ((takeNoted s m src).setTracker src
          { s.tracker src with state := .inService, holder := some m, merged := false }).setCtx m
        { s.ctx m with
          stack := (s.ctx m).stack ++ [entryAtTake s src via]
          reclaimed := (s.ctx m).reclaimed.filter (· ≠ src) }) ∧
    ((s.route src).autodone = true → isEdgeLine (s.route src) src → (s.tracker src).again = false →
      u = (takeNoted s m src).setTracker src (idled (s.tracker src))) ∧
    ((s.route src).autodone = true → ∀ g, src = signalSource g →
      u = ((takeNoted s m src).setQueue g (s.queue g).tail).setTracker src
        (if (s.queue g).tail = [] then idled (s.tracker src)
         else { s.tracker src with state := .pending, holder := none, merged := false, passSet := 0 }))

/-- The tracker of a line source at rest after a completion (R14). -/
def restedLine (trigger : Trigger) (t : Tracker) : Tracker :=
  if (trigger = .edge ∧ t.again = true) then { t with state := .pending, holder := none, again := false, passSet := 0 }
  else if (trigger = .level ∧ t.line = true) then { t with state := .pending, holder := none, passSet := 0 }
  else idled t

/-- All of the completion of the entry for `src` of `m`, whose other entries are `rest`, up to the end of leaving
and the pass (R101, steps 1 to 3; R14): `s` before it, `u` after it. -/
def Completed (m : Master) (src : Source) (rest : List Entry) (s u : State) : Prop :=
  (∀ k, u.ctx k = if k = m then { s.ctx m with stack := rest, missCount := 0 } else s.ctx k) ∧
    (∀ j, j ≠ src → u.tracker j = s.tracker j) ∧
    (src.val < 24 → u.tracker src = restedLine (s.route src).trigger (s.tracker src) ∧ u.queues = s.queues) ∧
    (∀ g, src = signalSource g →
      u.queue g = (s.queue g).tail ∧ (∀ k, k ≠ g → u.queue k = s.queue k) ∧
      u.tracker src = if (s.queue g).tail = [] then idled (s.tracker src)
        else { s.tracker src with state := .pending, holder := none, passSet := 0 }) ∧
    u.routes = s.routes ∧ u.offers = s.offers ∧ u.ports = s.ports ∧ SameTimebase s u

/-- All of the charged reclaim of the entry for `src` of `m`, whose other entries are `rest`, in steps 1 to 5 of
R118: `s` before it, `u` after it. -/
def ChargedReclaim (m : Master) (src : Source) (rest : List Entry) (s u : State) : Prop :=
  (∀ k, u.ctx k =
      if k = m then
        { s.ctx m with
          stack := rest, missCount := (s.ctx m).missCount + 1,
          reclaimed := placedNewest src (s.ctx m).reclaimed }
      else s.ctx k) ∧
    Interrupted (s.route src) src (s.tracker src) (u.tracker src) ∧
    (u.tracker src).passSet = setAdd (s.tracker src).passSet m ∧
    (∀ j, j ≠ src → u.tracker j = s.tracker j) ∧
    (∀ k, u.port k = if k = m then noticedPort (.reclaimed src true) (s.port m) else s.port k) ∧
    u.routes = s.routes ∧ u.offers = s.offers ∧ u.queues = s.queues ∧ SameTimebase s u

/-- No master but `p` is ONLINE or LEAVING (R58). -/
def SoleMember (s : State) (p : Master) : Prop :=
  ∀ m, m ≠ p → (s.ctx m).portState ≠ .online ∧ (s.ctx m).portState ≠ .leaving

/-- `p` may configure the route of `src`: it is the binder, or the route is unbound (R19). -/
def MayConfigure (s : State) (p : Master) (src : Source) : Prop :=
  (s.route src).binder = none ∨ (s.route src).binder = some p

/-- One sample `x` of an input `i` leaves `j`, when `n` successive opposite samples recognise a change (R2, R49,
R86, R159). -/
def Sampled (n : Nat) (x : Bool) (i j : Sampler) : Prop :=
  (x = i.level → j = { i with streak := 0 }) ∧
    (x ≠ i.level → i.streak + 1 < n → j = { i with streak := i.streak + 1 }) ∧
    (x ≠ i.level → n ≤ i.streak + 1 → j = { level := x, streak := 0, change := true })

/-- The PRSTn and IACK inputs have taken their samples, two of which recognise a change, and HRST its own, of which
four do (R49, R86, R159). -/
def PinsSampled (sm : Samples) (s t : State) : Prop :=
  (∀ p : Master, Sampled 2 (sm.prst.getLsbD p.val) (s.prstInput p) (t.prstInput p)) ∧
    (∀ p : Master, Sampled 2 (sm.iack.getLsbD p.val) (s.iackInput p) (t.iackInput p)) ∧
    Sampled 4 sm.hrst s.inputs.hrst t.inputs.hrst

/-- No recognised change of an input waits to be taken, so a period of TREF can come (R3, R49, R86, R159). -/
def NoChangeWaits (s : State) : Prop :=
  (∀ n, (s.reqLine n).change = false) ∧ (∀ p, (s.prstInput p).change = false) ∧
    (∀ p, (s.iackInput p).change = false) ∧ s.inputs.hrst.change = false

/-- HRST or PRSTn of port `p` is held, from the recognition of its assertion to the recognition of its release (R49,
R50, R159): asserted as recognised, or taken so with no recognised change waiting. -/
def ResetHeld (s : State) (p : Master) : Prop :=
  (s.inputs.hrst.level = true ∨ (s.hubHeld = true ∧ s.inputs.hrst.change = false)) ∨
    ((s.prstInput p).level = true ∨ ((s.port p).resetHeld = true ∧ (s.prstInput p).change = false))

/-- The release of HRST or of PRSTn of port `p` is recognised and waits to be taken. -/
def ReleaseWaits (s : State) (p : Master) : Prop :=
  (s.inputs.hrst.level = false ∧ s.inputs.hrst.change = true) ∨
    ((s.prstInput p).level = false ∧ (s.prstInput p).change = true)

/-- The window of port `p` is operative, and IACK of the port is released, as recognised: a read of the window is
then what its offset says (R50, R86, R146, R156). -/
def ReadsOpen (s : State) (p : Master) : Prop := ¬ ResetHeld s p ∧ (s.iackInput p).level = false

/-- IACK of port `p` is asserted, as recognised, and the assertion waits to be taken. -/
def IackWaits (s : State) (p : Master) : Prop :=
  (s.iackInput p).level = true ∧ (s.iackInput p).change = true

/-- The offer record of `p` names `src`. -/
def OwnOffer (s : State) (p : Master) (src : Source) : Prop := (s.offer p).map (·.source) = some src

/-- The urgency `u` is at least the threshold and, for a NESTED master with entries, above the urgency at take of
its newest entry (R26, R56, R64). -/
def UrgencySuits (u : Urgency) (c : Context) : Prop :=
  c.threshold.val ≤ u.val ∧ (c.nesting = .nested → ∀ e, c.stack.getLast? = some e → e.urgency < u)

/-- The candidates of POLL (R90): the source of the caller's offer, and every PENDING enabled source that is eligible
for the caller, the LINE condition left out. -/
def PollCandidate (s : State) (p : Master) (src : Source) : Prop :=
  OwnOffer s p src ∨
    ((s.tracker src).state = .pending ∧ (s.route src).enabled = true ∧
      setHas (s.route src).targets p = true ∧ (s.ctx p).portState = .online ∧
      setHas (s.tracker src).passSet p = false ∧ setHas (s.ctx p).maskSet src = false ∧
      UrgencySuits (s.route src).urgency (s.ctx p) ∧ (s.ctx p).stack.length < 8)

/-- The configuration commands (R19). -/
def configurationCodes : List Code :=
  [.route, .urge, .trig, .auto, .limit, .enable, .disable, .heir, .unbind, .flush]

/-- The commands accepted in every port state (R40). -/
def queryCodes : List Code := [.status, .time, .readSrc, .readRoute, .readStack, .readQ, .notice]

end Sys2Proof.Safety
end

