-- ==== Sys2Proof/Certificates/Slice0/Obligations.lean ====
section
/-! DEFINITION. The statements for the provers. Each docstring names the rules a statement formalises. In the
statements about executed commands, `HeadReady s p code a b words` says that the word of that code and those
operands heads the command queue of port `p` with room for its reply and no reset to be taken first, and `replied`
is that word answered; the rest of each equation is the whole next state, so nothing it does not write changes. -/

open Sys2Proof Sys2Proof.Machine Sys2Proof.Safety

/-! Steps -/

/-- A step takes the command at the front of the queue and runs it on the state with the queue's rest. -/
def Obligations.StepRunsFrontCommand : Prop :=
  ∀ (c : Instr) (rest : List Instr) (s : State),
    step (s.withPending (c :: rest)) = exec c (s.withPending rest)

/-- Every row of the table answers a next state, whatever the state, and none reaches the queue of waiting
commands: no step of the hub ends in a fault or a refusal. That a row whose event does not wait, or whose head word
does not execute, answers the state it found is the model's choice (log 3), as is that rows wait for a recognised
reset (log 22). -/
def Obligations.EveryRowAnswersNextState : Prop :=
  ∀ (c : Instr) (s : State), ∃ t, exec c s = .next t ∧ t.pending = s.pending

/-! Resets -/

/-- The reset state holds the hub-reset values of R5, R18, R36, R61, R112, R129, R131 and R159. That every request
line was sampled low at the release is the model's choice (log 1). -/
def Obligations.ResetHoldsTheResetValues : Prop :=
  (∀ src, State.reset.tracker src =
    { state := .idle, holder := none, merged := false, again := false, line := false, passSet := 0 }) ∧
  (∀ src, State.reset.route src =
    { trigger := .edge, urgency := 0, targets := 0, policy := .fixed, autodone := false, limitClass := 0,
      enabled := false, binder := none, heir := none, last := 3 }) ∧
  (∀ m, State.reset.ctx m =
    { portState := .offline, maskSet := 0xFFFFFFFF, threshold := 0, nesting := .nested, lineMode := .line,
      stack := [], missCount := 0, reclaimed := [] }) ∧
  (∀ m, State.reset.offer m = none) ∧ (∀ g, State.reset.queue g = []) ∧
  State.reset.period = 0 ∧ State.reset.tick = 0 ∧
  State.reset.settings =
    { class1 := 100, class2 := 1000, class3 := 10000, offerLimit := 32, fenceThreshold := 3 } ∧
  (∀ p, (State.reset.port p).commands = [] ∧ (State.reset.port p).replies = [] ∧
    (State.reset.port p).notices = [] ∧ (State.reset.port p).overrun = false ∧
    (State.reset.port p).noticeOverflow = false) ∧
  State.reset.hubHeld = false ∧ State.reset.pending = []

/-- The reset state meets every invariant. -/
def Obligations.ResetStateIsConsistent : Prop := Consistent State.reset

/-- HUB_RESET: a recognised assertion of HRST takes every record to its hub-reset value and leaves HRST held (R4, R5,
R18, R36, R61, R109, R112, R129, R131, R159), with zero on the data lines (R86). The line fields wait for the release
(their value until then is log 24, and nothing is said of it here).
That the PRSTn and IACK inputs, their untaken changes and the lines held go on through it is the model's reading
(log 9), that a held IACK then carries zero log 10; `readData` is the model's own field, cleared here by its choice
(log 5). -/
def Obligations.HubResetClearsEverything : Prop :=
  ∀ s : State, s.inputs.hrst.level = true → s.inputs.hrst.change = true →
    ∃ t, exec .hubReset s = .next t ∧ t.hubHeld = true ∧
      (∀ src, (t.tracker src).state = .idle ∧ (t.tracker src).holder = none ∧ (t.tracker src).merged = false ∧
        (t.tracker src).again = false ∧ (t.tracker src).passSet = 0) ∧
      (∀ src, t.route src = Route.reset) ∧ (∀ m, t.ctx m = Context.reset) ∧ (∀ m, t.offer m = none) ∧
      (∀ g, t.queue g = []) ∧ t.period = 0 ∧ t.tick = 0 ∧ t.settings = Settings.reset ∧
      (∀ p, t.port p =
        { s.port p with
          commands := [], replies := [], notices := [], overrun := false, noticeOverflow := false, ackWord := 0,
          readData := 0 }) ∧
      (∀ n, (t.reqLine n).change = false) ∧ t.inputs.prst = s.inputs.prst ∧ t.inputs.iack = s.inputs.iack ∧
      t.inputs.hrst = { s.inputs.hrst with change := false } ∧ t.pending = s.pending

/-- HUB_RESET_RELEASE: a recognised release loads the held level and the line field of every line with the one
sample taken then, which is no change (R4, R109, R159). An IACK assertion that still waits is taken as no access, with
zero on the data lines (R86, log 10). A signal source, which has no line field (R5), takes a low one: the model's
choice (log 19). Nothing else is written. That the sample is the row's operand is the model's choice (log 6). -/
def Obligations.HubReleaseLoadsTheLines : Prop :=
  ∀ (req : BitVec 24) (s : State), s.hubHeld = true → s.inputs.hrst.level = false → s.inputs.hrst.change = true →
    ∃ t, exec (.hubResetRelease req) s = .next t ∧ t.hubHeld = false ∧
      (∀ n : Line, t.reqLine n = { level := req.getLsbD n.val, streak := 0, change := false } ∧
        t.tracker (lineSource n) = { s.tracker (lineSource n) with line := req.getLsbD n.val }) ∧
      (∀ g, t.tracker (signalSource g) = { s.tracker (signalSource g) with line := false }) ∧
      t.inputs.prst = s.inputs.prst ∧ t.inputs.hrst = { s.inputs.hrst with change := false } ∧
      (∀ p, (IackWaits s p →
          t.iackInput p = { s.iackInput p with change := false } ∧
          t.port p = { s.port p with iackHeld := true, ackWord := 0 }) ∧
        (¬ IackWaits s p → t.iackInput p = s.iackInput p ∧ t.port p = s.port p)) ∧
      { t with hubHeld := s.hubHeld, inputs := s.inputs, trackers := s.trackers, ports := s.ports } = s

/-- PORT_RESET of a present master: the eight steps of R49, with the port's part of R158. The data lines carry
zero from the assertion on (R86); that a held IACK stays held, with that zero as its word, is the model's reading (log
10). The model's own `readData` is left as it was (log 5). A recognised change of HRST is taken first (R159, log 22). -/
def Obligations.PortResetOfPresentMaster : Prop :=
  ∀ (p : Master) (s : State), (s.prstInput p).level = true → (s.prstInput p).change = true → s.hubHeld = false →
    ¬ HrstWaits s → (s.ctx p).portState ≠ .offline →
    ∃ u, PortReset p s u ∧
      u.inputs = { s.inputs with
        prst := s.inputs.prst.set p.val { s.prstInput p with change := false } p.isLt } ∧
      exec (.portReset p) s = .next (dispatchPass u)

/-- PORT_RESET of an OFFLINE master takes steps 5 and 6 of R49 alone, with zero on the data lines (R86, log 10), and
while HRST is held it has no effect but to hold the port (R159); PORT_RESET_RELEASE takes the release of PRSTn and changes nothing else (R50, R158), but that
an IACK assertion that still waits is taken as no access, with zero on the data lines (R86, log 10). PRSTn has no effect
while HRST is held, so a PORT_RESET before the row of a recognised change of HRST changes nothing (R159, log 22). -/
def Obligations.PortResetOfOfflineMasterAndRelease : Prop :=
  ∀ (p : Master) (s : State), (s.prstInput p).change = true →
    let taken := s.setInputs { s.inputs with
      prst := s.inputs.prst.set p.val { s.prstInput p with change := false } p.isLt }
    (HrstWaits s → exec (.portReset p) s = .next s) ∧
    ((s.prstInput p).level = true → s.hubHeld = false → ¬ HrstWaits s → (s.ctx p).portState = .offline →
      exec (.portReset p) s = .next
        ((taken.setCtx p
          { s.ctx p with
            maskSet := 0xFFFFFFFF, threshold := 0, nesting := .nested, lineMode := .line, missCount := 0,
            reclaimed := [] }).setPort p
          { s.port p with
            commands := [], replies := [], notices := [], overrun := false, noticeOverflow := false,
            resetHeld := true, ackWord := 0 })) ∧
    ((s.prstInput p).level = true → s.hubHeld = true → ¬ HrstWaits s →
      exec (.portReset p) s = .next (taken.setPort p { s.port p with resetHeld := true })) ∧
    ((s.prstInput p).level = false → ¬ IackWaits s p →
      exec (.portResetRelease p) s = .next (taken.setPort p { s.port p with resetHeld := false })) ∧
    ((s.prstInput p).level = false → IackWaits s p →
      exec (.portResetRelease p) s = .next ((taken.setInputs { taken.inputs with
        iack := s.inputs.iack.set p.val { s.iackInput p with change := false } p.isLt }).setPort p
        { s.port p with resetHeld := false, iackHeld := true, ackWord := 0 }))

/-! Request lines and timebase -/

/-- RISE of an EDGE source is an edge event, with the effect R9 gives each state. A recognised reset is taken before it
(log 22). -/
def Obligations.EdgeEventActsByState : Prop :=
  ∀ (n : Line) (s : State), NoResetWaits s → (s.reqLine n).level = true → (s.reqLine n).change = true →
    (s.route (lineSource n)).trigger = .edge →
    let src := lineSource n
    let t := s.tracker src
    let taken := s.setInputs { s.inputs with
      req := s.inputs.req.set n.val { s.reqLine n with change := false } n.isLt }
    (t.state = .idle →
      exec (.rise n) s = .next (dispatchPass (taken.setTracker src { t with line := true, state := .pending }))) ∧
    (t.state = .pending ∨ t.state = .offered →
      exec (.rise n) s = .next (taken.setTracker src { t with line := true, merged := true })) ∧
    (t.state = .inService → t.again = false →
      exec (.rise n) s = .next (taken.setTracker src { t with line := true, again := true })) ∧
    (t.state = .inService → t.again = true →
      exec (.rise n) s = .next (taken.setTracker src { t with line := true, merged := true }))

/-- RISE of a LEVEL source is an assert event; FALL of an EDGE source sets the line field low alone (R10).
A recognised reset is taken before either (log 22). -/
def Obligations.AssertEventAndEdgeFall : Prop :=
  ∀ (n : Line) (s : State), NoResetWaits s → (s.reqLine n).change = true →
    let src := lineSource n
    let t := s.tracker src
    let taken := s.setInputs { s.inputs with
      req := s.inputs.req.set n.val { s.reqLine n with change := false } n.isLt }
    ((s.reqLine n).level = true → (s.route src).trigger = .level → t.state = .idle →
      exec (.rise n) s = .next (dispatchPass (taken.setTracker src { t with line := true, state := .pending }))) ∧
    ((s.reqLine n).level = true → (s.route src).trigger = .level → t.state ≠ .idle →
      exec (.rise n) s = .next (taken.setTracker src { t with line := true })) ∧
    ((s.reqLine n).level = false → (s.route src).trigger = .edge →
      exec (.fall n) s = .next (taken.setTracker src { t with line := false }))

/-- FALL of a LEVEL source is a deassert event: PENDING and OFFERED sources become IDLE, and an offer is
withdrawn, with a pass (R11). A recognised reset is taken before it (log 22). -/
def Obligations.DeassertEventActsByState : Prop :=
  ∀ (n : Line) (s : State), NoResetWaits s → (s.reqLine n).level = false → (s.reqLine n).change = true →
    (s.route (lineSource n)).trigger = .level →
    let src := lineSource n
    let t := s.tracker src
    let taken := s.setInputs { s.inputs with
      req := s.inputs.req.set n.val { s.reqLine n with change := false } n.isLt }
    (t.state = .idle ∨ t.state = .inService →
      exec (.fall n) s = .next (taken.setTracker src { t with line := false })) ∧
    (t.state = .pending →
      exec (.fall n) s = .next (taken.setTracker src { idled t with line := false })) ∧
    (∀ m, t.state = .offered → t.holder = some m →
      exec (.fall n) s = .next
        (dispatchPass ((taken.setTracker src { idled t with line := false }).setOffer m none)))

/-- TREF_PERIOD samples every input once (R2, R49, R86, R159) and advances the period counter (R109); while HRST
is held it samples the pins alone and the counter stands (R4, R109). While a recognised change waits, neither
TREF_PERIOD nor TICK comes before it is taken (R3 for the lines; for the pins log 8), so the row changes nothing
(log 3). -/
def Obligations.PeriodSamplesEveryInput : Prop :=
  ∀ (sm : Samples) (s : State),
    (NoChangeWaits s → s.hubHeld = false → s.period ≠ 63 →
      ∃ t, exec (.trefPeriod sm) s = .next t ∧ t.period.val = s.period.val + 1 ∧
        (∀ n, Sampled 2 (sm.req.getLsbD n.val) (s.reqLine n) (t.reqLine n)) ∧ PinsSampled sm s t ∧
        { t with inputs := s.inputs, period := s.period } = s) ∧
    (NoChangeWaits s → s.hubHeld = true →
      ∃ t, exec (.trefPeriod sm) s = .next t ∧ (∀ n, t.reqLine n = s.reqLine n) ∧ PinsSampled sm s t ∧
        { t with inputs := s.inputs } = s) ∧
    (¬ NoChangeWaits s → exec (.trefPeriod sm) s = .next s ∧ exec (.tick sm) s = .next s)

/-- Two successive samples opposite to the held level of a request line are recognised as its change; one such
sample between two at the held level is not (R2). Between the two periods any events may come that leave the line's
input alone, the changes of other inputs that the first period recognised among them (R3). -/
def Obligations.TwoSamplesRecogniseAChange : Prop :=
  ∀ (n : Line) (a : Samples) (s : State), NoChangeWaits s → s.hubHeld = false → s.period ≠ 63 →
    (s.reqLine n).streak ≤ 1 → a.req.getLsbD n.val = !(s.reqLine n).level →
    ∃ t, exec (.trefPeriod a) s = .next t ∧
      ((s.reqLine n).streak = 1 → (t.reqLine n).level = !(s.reqLine n).level ∧ (t.reqLine n).change = true) ∧
      ((s.reqLine n).streak = 0 →
        ∀ (b : Samples) (t' : State), t'.reqLine n = t.reqLine n → NoChangeWaits t' → t'.hubHeld = false →
          t'.period ≠ 63 →
          ∃ u, exec (.trefPeriod b) t' = .next u ∧
            (b.req.getLsbD n.val = !(s.reqLine n).level →
              (u.reqLine n).level = !(s.reqLine n).level ∧ (u.reqLine n).change = true) ∧
            (b.req.getLsbD n.val = (s.reqLine n).level → u.reqLine n = s.reqLine n))

/-- TICK: the period after count 63 takes the period counter to 0 and the tick count on by one, modulo 2^32, and
raises the expiry of every offer and entry whose value it reaches, and of no other (R109, R111). -/
def Obligations.TickAdvancesAndRaisesExpiries : Prop :=
  ∀ (sm : Samples) (s : State), NoChangeWaits s → s.hubHeld = false → s.period = 63 →
    ∃ t, exec (.tick sm) s = .next t ∧ t.period = 0 ∧ t.tick = s.tick + 1 ∧
      (∀ m, t.offer m = (s.offer m).map (fun o =>
        { o with raised := o.raised || decide (o.expires = some (s.tick + 1)) })) ∧
      (∀ m, t.ctx m = { s.ctx m with
        stack := (s.ctx m).stack.map (fun e =>
          { e with raised := e.raised || decide (e.due = some (s.tick + 1)) }) }) ∧
      (∀ n, Sampled 2 (sm.req.getLsbD n.val) (s.reqLine n) (t.reqLine n)) ∧ PinsSampled sm s t ∧
      { t with inputs := s.inputs, offers := s.offers, contexts := s.contexts, period := s.period,
               tick := s.tick } = s

/-! The port window -/

/-- CMD_WRITE appends the word, or discards it and sets the overrun flag when four words wait (R147);
WINDOW_WRITE_IGNORED at offsets 04H, 08H and 0CH changes nothing (R146). Offset 00H is CMD_WRITE's: that the
ill-formed term with offset 0 changes nothing too is the model's choice (log 20). -/
def Obligations.WindowWritesQueueOrAreIgnored : Prop :=
  ∀ (p : Master) (w : Word) (s : State),
    (¬ ResetHeld s p → (s.port p).commands.length < 4 →
      exec (.cmdWrite p w) s = .next (s.setPort p { s.port p with commands := (s.port p).commands ++ [w] })) ∧
    (¬ ResetHeld s p → 4 ≤ (s.port p).commands.length →
      exec (.cmdWrite p w) s = .next (s.setPort p { s.port p with overrun := true })) ∧
    (∀ offset, exec (.windowWriteIgnored p offset w) s = .next s)

/-- RPL_READ removes and returns the oldest reply word; an empty queue returns the EMPTY header, all zero, and
changes nothing (R152, R153, R167). `readData` is the model's own record of what the read returned (log 5). -/
def Obligations.ReplyReadPopsOldestWord : Prop :=
  ∀ (p : Master) (s : State), ReadsOpen s p →
    (∀ w rest, (s.port p).replies = w :: rest →
      exec (.rplRead p) s = .next (s.setPort p { s.port p with replies := rest, readData := w })) ∧
    ((s.port p).replies = [] → exec (.rplRead p) s = .next (s.setPort p { s.port p with readData := 0 }))

/-- While PRSTn of the port or HRST is held, from the recognition of its assertion to that of its release, writes to the
window are ignored, reads of every offset return zero, INTQ is low, and neither an ACK read nor an IACK pulse takes
anything (R50, R146, R157, R159). That the ignored pulse leaves IACK held with zero on the data lines, and that one
recognised by the time the release is taken is held through it, is read from R86 (log 10); `readData` is the model's own
record of what a read returned (log 5), and the reads of PSTAT and 0CH are functions (log 12). From the recognition of
PRSTn of any port, or of a change of HRST, until its row is taken, no execution, line event or expiry is taken, nor an
acknowledge access that would take an offer: a reset is taken at the recognition (R49, R159), the lines are loaded at the
release (R4), and that these rows then change nothing is the model's reading (log 22). -/
def Obligations.HeldWindowIsInoperative : Prop :=
  (∀ s : State, ¬ NoResetWaits s →
    (∀ p c, exec (Instr.execution p c) s = .next s ∧ exec (.undefinedCode p) s = .next s) ∧
    (∀ n, exec (.rise n) s = .next s ∧ exec (.fall n) s = .next s) ∧
    (∀ m, exec (.offerExpiry m) s = .next s ∧ ∀ src, exec (.deadlineExpiry m src) s = .next s) ∧
    (∀ p, ReadsOpen s p → s.offer p ≠ none → exec (.ackRead p) s = .next s) ∧
    (∀ p, ¬ ResetHeld s p → ¬ ReleaseWaits s p → exec (.iackPulse p) s = .next s)) ∧
  (∀ (p : Master) (s : State), ResetHeld s p ∨ ReleaseWaits s p → IackWaits s p →
    exec (.iackPulse p) s = .next
      ((s.setInputs { s.inputs with
        iack := s.inputs.iack.set p.val { s.iackInput p with change := false } p.isLt }).setPort p
        { s.port p with iackHeld := true, ackWord := 0 })) ∧
  ∀ (p : Master) (s : State), ResetHeld s p →
    s.intq p = false ∧ (∀ w, exec (.cmdWrite p w) s = .next s) ∧
    exec (.rplRead p) s = .next (s.setPort p { s.port p with readData := 0 }) ∧
    exec (.ackRead p) s = .next (s.setPort p { s.port p with readData := 0 }) ∧
    pstatRead s p = some 0 ∧ offset0CRead s p = some 0

/-- ACK_READ takes the offer the master holds, as R93 to R95 state, and returns its take word; with no offer it
returns the NONE take word and takes nothing (R85, R94, R96). `readData` is the model's own record of what the read
returned (log 5). A recognised reset of another port is taken before an access that takes an offer (log 22). -/
def Obligations.AckReadTakesTheOffer : Prop :=
  ∀ (p : Master) (s : State), ReadsOpen s p →
    (∀ o, s.offer p = some o → NoResetWaits s →
      ∃ u, Taken s p o.source .ack u ∧
        exec (.ackRead p) s = .next ((dispatchPass u).setPort p
          { s.port p with readData := takeWord (entryAtTake s o.source .ack) })) ∧
    (s.offer p = none → exec (.ackRead p) s = .next (s.setPort p { s.port p with readData := 0 }))

/-- IACK_PULSE is one acknowledge access whose take word the data lines then carry; while IACK is asserted, as
recognised, a read of any offset returns that word and takes or removes nothing; IACK_RELEASE ends it and takes nothing
(R86, R156). A read between the recognition and the taking of an assertion waits for its take word: the row changes
nothing, the model's choice (logs 3, 10). A recognised reset of another port is taken before the access (log 22). `readData` is the model's own record of what a read returned (log 5), and the
reads of PSTAT and 0CH are functions (log 12). -/
def Obligations.IackPulseTakesAndReleaseEnds : Prop :=
  ∀ (p : Master) (s : State),
    let inputs := { s.inputs with
      iack := s.inputs.iack.set p.val { s.iackInput p with change := false } p.isLt }
    (¬ ResetHeld s p → ¬ ReleaseWaits s p → NoResetWaits s → IackWaits s p →
      (∀ o, s.offer p = some o →
        ∃ u, Taken s p o.source .ack u ∧
          exec (.iackPulse p) s = .next (((dispatchPass u).setInputs inputs).setPort p
            { s.port p with iackHeld := true, ackWord := takeWord (entryAtTake s o.source .ack) })) ∧
      (s.offer p = none →
        exec (.iackPulse p) s = .next ((s.setInputs inputs).setPort p
          { s.port p with iackHeld := true, ackWord := 0 }))) ∧
    ((s.iackInput p).level = false → (s.iackInput p).change = true →
      exec (.iackRelease p) s = .next ((s.setInputs inputs).setPort p
        { s.port p with iackHeld := false, ackWord := 0 })) ∧
    (¬ ResetHeld s p → (s.iackInput p).level = true → (s.port p).iackHeld = true →
      exec (.rplRead p) s = .next (s.setPort p { s.port p with readData := (s.port p).ackWord }) ∧
      exec (.ackRead p) s = .next (s.setPort p { s.port p with readData := (s.port p).ackWord }) ∧
      pstatRead s p = some (s.port p).ackWord ∧ offset0CRead s p = some (s.port p).ackWord) ∧
    (¬ ResetHeld s p → (s.iackInput p).level = true → (s.port p).iackHeld = false →
      exec (.rplRead p) s = .next s ∧ exec (.ackRead p) s = .next s ∧ pstatRead s p = none ∧
      offset0CRead s p = none)

/-! Taking, declining, completing -/

/-- TAKE takes the caller's offer with via TAKE and answers OK with the take word; with no offer it answers NONE
(R87, R93 to R96). -/
def Obligations.TakeTakesTheOffer : Prop :=
  ∀ (p : Master) (s : State), HeadReady s p 0x1C 0 0 2 → (s.ctx p).portState = .online →
    (∀ o, s.offer p = some o →
      ∃ u, Taken s p o.source .take u ∧
        exec (.take p) s = .next
          (replied (dispatchPass u) p 0x1C .ok [takeWord (entryAtTake s o.source .take)])) ∧
    (s.offer p = none → exec (.take p) s = .next (replied s p 0x1C .none []))

/-- POLL takes the most urgent of its candidates: the caller's own offer first among equals, else the lowest source
number; with no candidate it answers NONE (R90, R91, R93 to R96). -/
def Obligations.PollTakesTheMostUrgent : Prop :=
  ∀ (p : Master) (s : State), HeadReady s p 0x1D 0 0 2 → (s.ctx p).portState = .online →
    ((∀ src, ¬ PollCandidate s p src) → exec (.poll p) s = .next (replied s p 0x1D .none [])) ∧
    ((∃ src, PollCandidate s p src) →
      ∃ src u, PollCandidate s p src ∧
        (∀ j, PollCandidate s p j → (s.route j).urgency ≤ (s.route src).urgency) ∧
        (∀ j, PollCandidate s p j → (s.route j).urgency = (s.route src).urgency →
          OwnOffer s p src ∨ (¬ OwnOffer s p j ∧ src ≤ j)) ∧
        Taken s p src .poll u ∧
        exec (.poll p) s = .next
          (replied (dispatchPass u) p 0x1D .ok [takeWord (entryAtTake s src .poll)]))

/-- OFFER_EXPIRY and PASS end an offer alike: the source PENDING, the holder in its pass set, the record empty,
and a pass (R79, R81). A void expiry changes nothing, and a PASS without an offer answers NONE. A recognised reset is taken before either (log 22). -/
def Obligations.ExpiryAndPassEndTheOffer : Prop :=
  ∀ (p : Master) (s : State),
    (∀ o, s.offer p = some o →
      let u := (s.setTracker o.source
        { s.tracker o.source with
          state := .pending, holder := none, passSet := setAdd (s.tracker o.source).passSet p }).setOffer p none
      (o.raised = true → NoResetWaits s → exec (.offerExpiry p) s = .next (dispatchPass u)) ∧
      (o.raised = false → exec (.offerExpiry p) s = .next s) ∧
      (HeadReady s p 0x1B 0 0 1 → (s.ctx p).portState = .online →
        exec (.pass p) s = .next (replied (dispatchPass u) p 0x1B .ok []))) ∧
    (s.offer p = none →
      exec (.offerExpiry p) s = .next s ∧
      (HeadReady s p 0x1B 0 0 1 → (s.ctx p).portState = .online →
        exec (.pass p) s = .next (replied s p 0x1B .none [])))

/-- DONE completes the newest entry (R98, R101, R14), with the end of leaving when it was a LEAVING master's last
(R107, R43); on an empty stack it answers NOTHELD. -/
def Obligations.DoneCompletesTheNewestEntry : Prop :=
  ∀ (p : Master) (s : State), HeadReady s p 0x1E 0 0 1 →
    (s.ctx p).portState = .online ∨ (s.ctx p).portState = .leaving →
    (∀ l e, (s.ctx p).stack = l ++ [e] → (∀ x ∈ l, x.source ≠ e.source) →
      ∃ v, Completed p e.source l s v ∧
        ((s.ctx p).portState = .leaving → l = [] →
          ∃ u, LeavingEnded p v u ∧ exec (.done p) s = .next (replied (dispatchPass u) p 0x1E .ok [])) ∧
        ((s.ctx p).portState = .online ∨ l ≠ [] →
          exec (.done p) s = .next (replied (dispatchPass v) p 0x1E .ok []))) ∧
    ((s.ctx p).stack = [] → exec (.done p) s = .next (replied s p 0x1E .notHeld []))

/-- DONESRC completes the entry of the source named, at any position; else it answers LATE and removes the source
from the reclaimed list; else NOTHELD (R100, R101, R102, R103). -/
def Obligations.DoneSrcConsultsStackThenReclaimed : Prop :=
  ∀ (p : Master) (src : Source) (s : State), HeadReady s p 0x1F src.val 0 1 →
    (s.ctx p).portState = .online ∨ (s.ctx p).portState = .leaving →
    (∀ l e r, (s.ctx p).stack = l ++ e :: r → e.source = src → (∀ x ∈ l ++ r, x.source ≠ src) →
      ∃ v, Completed p src (l ++ r) s v ∧
        ((s.ctx p).portState = .leaving → l ++ r = [] →
          ∃ u, LeavingEnded p v u ∧ exec (.doneSrc p) s = .next (replied (dispatchPass u) p 0x1F .ok [])) ∧
        ((s.ctx p).portState = .online ∨ l ++ r ≠ [] →
          exec (.doneSrc p) s = .next (replied (dispatchPass v) p 0x1F .ok []))) ∧
    ((∀ e ∈ (s.ctx p).stack, e.source ≠ src) → src ∈ (s.ctx p).reclaimed →
      exec (.doneSrc p) s = .next (replied
        (s.setCtx p { s.ctx p with reclaimed := (s.ctx p).reclaimed.filter (· ≠ src) }) p 0x1F .late [])) ∧
    ((∀ e ∈ (s.ctx p).stack, e.source ≠ src) → src ∉ (s.ctx p).reclaimed →
      exec (.doneSrc p) s = .next (replied s p 0x1F .notHeld []))

/-- DEADLINE_EXPIRY: the charged reclaim of the entry, wherever it stands (R116, R117, R118), with the fencing
procedure when the miss count reaches the fence threshold (R123) and else the end of leaving when it was a LEAVING
master's last entry (R121); void when no raised entry for the source stands. A recognised reset is taken before it
(log 22). -/
def Obligations.DeadlineExpiryReclaimsCharged : Prop :=
  ∀ (m : Master) (src : Source) (s : State),
    (∀ l e r, (s.ctx m).stack = l ++ e :: r → e.source = src → (∀ x ∈ l ++ r, x.source ≠ src) →
      e.raised = true → NoResetWaits s → (s.ctx m).portState = .online ∨ (s.ctx m).portState = .leaving →
      ∃ v, ChargedReclaim m src (l ++ r) s v ∧
        ((s.ctx m).missCount + 1 = s.settings.fenceThreshold →
          ∃ u, Fenced m v u ∧ exec (.deadlineExpiry m src) s = .next (dispatchPass u)) ∧
        ((s.ctx m).missCount + 1 ≠ s.settings.fenceThreshold →
          (s.ctx m).portState = .leaving → l ++ r = [] →
          ∃ u, LeavingEnded m v u ∧ exec (.deadlineExpiry m src) s = .next (dispatchPass u)) ∧
        ((s.ctx m).missCount + 1 ≠ s.settings.fenceThreshold →
          (s.ctx m).portState = .online ∨ l ++ r ≠ [] →
          exec (.deadlineExpiry m src) s = .next (dispatchPass v))) ∧
    ((∀ e ∈ (s.ctx m).stack, e.source = src → e.raised = false) →
      exec (.deadlineExpiry m src) s = .next s)

/-! Membership -/

/-- JOIN of an OFFLINE caller makes it ONLINE, tells every other present master, starts a pass and answers OK; an
ONLINE caller is refused STATE (R41, R52). -/
def Obligations.JoinAdmitsAnOfflineMaster : Prop :=
  ∀ (p : Master) (s : State), HeadReady s p 0x01 0 0 1 →
    ((s.ctx p).portState = .offline →
      ∃ u, u.ctx p = { s.ctx p with portState := .online } ∧ (∀ k, k ≠ p → u.ctx k = s.ctx k) ∧
        u.port p = s.port p ∧
        (∀ k, k ≠ p → u.port k = if s.present k then noticedPort (.joined p) (s.port k) else s.port k) ∧
        u.trackers = s.trackers ∧ u.routes = s.routes ∧ u.offers = s.offers ∧ u.queues = s.queues ∧
        SameTimebase s u ∧ exec (.join p) s = .next (replied (dispatchPass u) p 0x01 .ok [])) ∧
    ((s.ctx p).portState = .online → exec (.join p) s = .next (replied s p 0x01 .state []))

/-- LEAVE withdraws the caller's offer and either ends the leaving at once, on an empty stack, or makes the caller
LEAVING; either starts a pass and answers OK (R42, R43). -/
def Obligations.LeaveEndsOrBeginsTheLeaving : Prop :=
  ∀ (p : Master) (s : State), HeadReady s p 0x02 0 0 1 → (s.ctx p).portState = .online →
    ((s.ctx p).stack = [] →
      ∃ u, LeavingEnded p (withdrawnOffer s p) u ∧
        exec (.leave p) s = .next (replied (dispatchPass u) p 0x02 .ok [])) ∧
    ((s.ctx p).stack ≠ [] →
      exec (.leave p) s = .next (replied
        (dispatchPass ((withdrawnOffer s p).setCtx p { s.ctx p with portState := .leaving })) p 0x02 .ok []))

/-- FENCE refuses the caller itself BADARG and an OFFLINE or FENCED master STATE, and else runs the fencing
procedure (R45, R46). UNFENCE readmits a FENCED master as OFFLINE and refuses any other STATE (R48). -/
def Obligations.FenceAndUnfenceMoveAMaster : Prop :=
  ∀ (p m : Master) (s : State), (s.ctx p).portState = .online →
    (HeadReady s p 0x03 m.val 0 1 →
      (m = p → exec (.fence p) s = .next (replied s p 0x03 .badArg [])) ∧
      ((s.ctx m).portState = .offline ∨ (s.ctx m).portState = .fenced →
        exec (.fence p) s = .next (replied s p 0x03 .state [])) ∧
      (m ≠ p → (s.ctx m).portState = .online ∨ (s.ctx m).portState = .leaving →
        ∃ u, Fenced m s u ∧ exec (.fence p) s = .next (replied (dispatchPass u) p 0x03 .ok []))) ∧
    (HeadReady s p 0x04 m.val 0 1 →
      ((s.ctx m).portState = .fenced →
        exec (.unfence p) s = .next (replied
          (dispatchPass ((s.setCtx m { s.ctx m with portState := .offline, reclaimed := [] }).setPort m
            { s.port m with notices := [], noticeOverflow := false })) p 0x04 .ok [])) ∧
      ((s.ctx m).portState ≠ .fenced → exec (.unfence p) s = .next (replied s p 0x04 .state [])))

/-! Masks and modes -/

/-- MASK, UNMASK and THRESH change the caller's own mask set and threshold. MASK withdraws the offer that names the
source, and a pass starts only then; UNMASK and THRESH always start one; THRESH withdraws an offer below the new
threshold (R53, R54). -/
def Obligations.MaskUnmaskThreshSetTheCaller : Prop :=
  ∀ (p : Master) (s : State), (s.ctx p).portState = .online →
    (∀ src : Source, HeadReady s p 0x05 src.val 0 1 →
      let u := s.setCtx p { s.ctx p with maskSet := setAdd (s.ctx p).maskSet src }
      (OwnOffer s p src →
        exec (.mask p) s = .next (replied (dispatchPass (withdrawnOffer u p)) p 0x05 .ok [])) ∧
      (¬ OwnOffer s p src → exec (.mask p) s = .next (replied u p 0x05 .ok []))) ∧
    (∀ src : Source, HeadReady s p 0x06 src.val 0 1 →
      exec (.unmask p) s = .next (replied
        (dispatchPass (s.setCtx p { s.ctx p with maskSet := setRemove (s.ctx p).maskSet src })) p 0x06 .ok [])) ∧
    (∀ t : Fin 9, HeadReady s p 0x07 t.val 0 1 →
      let u := s.setCtx p { s.ctx p with threshold := t }
      ((∃ o, s.offer p = some o ∧ (s.route o.source).urgency.val < t.val) →
        exec (.thresh p) s = .next (replied (dispatchPass (withdrawnOffer u p)) p 0x07 .ok [])) ∧
      ((∀ o, s.offer p = some o → t.val ≤ (s.route o.source).urgency.val) →
        exec (.thresh p) s = .next (replied (dispatchPass u) p 0x07 .ok [])))

/-- NEST and OPEN set the nesting mode on an empty stack and are refused BUSY otherwise (R55); QUIET withdraws the
caller's offer, with a pass only then; LOUD always starts a pass (R57). -/
def Obligations.ModeCommandsSetTheCaller : Prop :=
  ∀ (p : Master) (s : State), (s.ctx p).portState = .online →
    (HeadReady s p 0x08 0 0 1 →
      ((s.ctx p).stack = [] →
        exec (.nest p) s = .next (replied (s.setCtx p { s.ctx p with nesting := .nested }) p 0x08 .ok [])) ∧
      ((s.ctx p).stack ≠ [] → exec (.nest p) s = .next (replied s p 0x08 .busy []))) ∧
    (HeadReady s p 0x09 0 0 1 →
      ((s.ctx p).stack = [] →
        exec (.openMode p) s = .next (replied (s.setCtx p { s.ctx p with nesting := .openMode }) p 0x09 .ok [])) ∧
      ((s.ctx p).stack ≠ [] → exec (.openMode p) s = .next (replied s p 0x09 .busy []))) ∧
    (HeadReady s p 0x0A 0 0 1 →
      let u := s.setCtx p { s.ctx p with lineMode := .quiet }
      (s.offer p ≠ none →
        exec (.quiet p) s = .next (replied (dispatchPass (withdrawnOffer u p)) p 0x0A .ok [])) ∧
      (s.offer p = none → exec (.quiet p) s = .next (replied u p 0x0A .ok []))) ∧
    (HeadReady s p 0x0B 0 0 1 →
      exec (.loud p) s = .next (replied
        (dispatchPass (s.setCtx p { s.ctx p with lineMode := .line })) p 0x0B .ok []))

/-! Hub settings -/

/-- SETCLASS, SETOFFER and SETFENCE of the sole member set their setting, SETFENCE also clears every miss count,
and none starts a pass; with another master ONLINE or LEAVING each is refused NOTSOLE (R58, R84, R113, R124). -/
def Obligations.HubSettingsNeedTheSoleMember : Prop :=
  ∀ (p : Master) (s : State), (s.ctx p).portState = .online →
    (∀ t : BitVec 16, t ≠ 0 →
      (HeadReady s p 0x0C 1 t.toNat 1 → SoleMember s p →
        exec (.setClass p) s = .next (replied (s.setSettings { s.settings with class1 := t }) p 0x0C .ok [])) ∧
      (HeadReady s p 0x0C 2 t.toNat 1 → SoleMember s p →
        exec (.setClass p) s = .next (replied (s.setSettings { s.settings with class2 := t }) p 0x0C .ok [])) ∧
      (HeadReady s p 0x0C 3 t.toNat 1 → SoleMember s p →
        exec (.setClass p) s = .next (replied (s.setSettings { s.settings with class3 := t }) p 0x0C .ok [])) ∧
      (∀ c, 1 ≤ c → c ≤ 3 → HeadReady s p 0x0C c t.toNat 1 → ¬ SoleMember s p →
        exec (.setClass p) s = .next (replied s p 0x0C .notSole []))) ∧
    (∀ t : BitVec 8, HeadReady s p 0x0D t.toNat 0 1 →
      (SoleMember s p →
        exec (.setOffer p) s = .next (replied (s.setSettings { s.settings with offerLimit := t }) p 0x0D .ok [])) ∧
      (¬ SoleMember s p → exec (.setOffer p) s = .next (replied s p 0x0D .notSole []))) ∧
    (∀ n, 1 ≤ n → n ≤ 7 → HeadReady s p 0x0E n 0 1 →
      (SoleMember s p →
        ∃ u, (∀ m, u.ctx m = { s.ctx m with missCount := 0 }) ∧
          u.settings = { s.settings with fenceThreshold := n } ∧
          { u with contexts := s.contexts, settings := s.settings } = s ∧
          exec (.setFence p) s = .next (replied u p 0x0E .ok [])) ∧
      (¬ SoleMember s p → exec (.setFence p) s = .next (replied s p 0x0E .notSole [])))

/-! The route table -/

/-- BIND makes the caller the binder of an unbound route, answers OK to the binder and NOTOWNER to another master;
UNBIND and HEIR of the binder clear the binding and set the heir, HEIR refusing the binder itself BADARG; none
starts a pass (R20, R21, R22). -/
def Obligations.BindUnbindHeirChangeTheBinding : Prop :=
  ∀ (p : Master) (src : Source) (s : State), (s.ctx p).portState = .online →
    (HeadReady s p 0x0F src.val 0 1 →
      ((s.route src).binder = none →
        exec (.bind p) s = .next (replied (s.setRoute src { s.route src with binder := some p }) p 0x0F .ok [])) ∧
      ((s.route src).binder = some p → exec (.bind p) s = .next (replied s p 0x0F .ok [])) ∧
      (∀ m, (s.route src).binder = some m → m ≠ p →
        exec (.bind p) s = .next (replied s p 0x0F .notOwner []))) ∧
    (HeadReady s p 0x10 src.val 0 1 → (s.route src).binder = some p →
      exec (.unbind p) s = .next (replied
        (s.setRoute src { s.route src with binder := none, heir := none }) p 0x10 .ok [])) ∧
    (∀ m : Master, HeadReady s p 0x11 src.val m.val 1 → (s.route src).binder = some p →
      (m = p → exec (.heir p) s = .next (replied s p 0x11 .badArg [])) ∧
      (m ≠ p → exec (.heir p) s = .next (replied
        (s.setRoute src { s.route src with heir := some m }) p 0x11 .ok []))) ∧
    (HeadReady s p 0x11 src.val 4 1 → (s.route src).binder = some p →
      exec (.heir p) s = .next (replied (s.setRoute src { s.route src with heir := none }) p 0x11 .ok []))

/-- ROUTE replaces targets and policy, clears the pass set and starts a pass; an offer whose holder is no longer a
target is withdrawn in the same event, and any other stands (R25). -/
def Obligations.RouteReplacesTargetsAndPolicy : Prop :=
  ∀ (p : Master) (src : Source) (targets : MasterSet) (policy : Policy) (s : State),
    HeadReady s p 0x12 src.val
      (targets.toNat + 16 * (match policy with | .fixed => 0 | .rotate => 1 | .least => 2)) 1 →
    (s.ctx p).portState = .online → MayConfigure s p src →
    let r := s.setRoute src { s.route src with targets := targets, policy := policy }
    let t := { s.tracker src with passSet := 0 }
    (∀ m, (s.tracker src).state = .offered → (s.tracker src).holder = some m → setHas targets m = false →
      exec (.route p) s = .next (replied
        (dispatchPass ((r.setTracker src (waiting t)).setOffer m none)) p 0x12 .ok [])) ∧
    ((s.tracker src).state ≠ .offered ∨ (∃ m, (s.tracker src).holder = some m ∧ setHas targets m = true) →
      exec (.route p) s = .next (replied (dispatchPass (r.setTracker src t)) p 0x12 .ok []))

/-- URGE replaces the urgency and starts a pass; an offer whose holder the new urgency no longer suits, by threshold
or by effective level, is withdrawn in the same event, and any other stands (R26). -/
def Obligations.UrgeReplacesTheUrgency : Prop :=
  ∀ (p : Master) (src : Source) (u : Urgency) (s : State), HeadReady s p 0x13 src.val u.val 1 →
    (s.ctx p).portState = .online → MayConfigure s p src →
    let r := s.setRoute src { s.route src with urgency := u }
    (∀ m, (s.tracker src).state = .offered → (s.tracker src).holder = some m → ¬ UrgencySuits u (s.ctx m) →
      exec (.urge p) s = .next (replied
        (dispatchPass ((r.setTracker src (waiting (s.tracker src))).setOffer m none)) p 0x13 .ok [])) ∧
    ((s.tracker src).state ≠ .offered ∨ (∃ m, (s.tracker src).holder = some m ∧ UrgencySuits u (s.ctx m)) →
      exec (.urge p) s = .next (replied (dispatchPass r) p 0x13 .ok []))

/-- TRIG is refused BUSY for a source that is enabled, OFFERED or INSERVICE, and BADCOMBO for LEVEL with autodone
on (R27); else it sets the trigger and recomputes the pending state, with a pass when the source goes from IDLE to
PENDING (R28). -/
def Obligations.TrigRecomputesThePendingState : Prop :=
  ∀ (p : Master) (n : Line) (s : State), (s.ctx p).portState = .online → MayConfigure s p (lineSource n) →
    let src := lineSource n
    let t := s.tracker src
    let busy := (s.route src).enabled = true ∨ t.state = .offered ∨ t.state = .inService
    (HeadReady s p 0x14 src.val 0 1 →
      (busy → exec (.trig p) s = .next (replied s p 0x14 .busy [])) ∧
      (¬ busy → exec (.trig p) s = .next (replied
        ((s.setRoute src { s.route src with trigger := .edge }).setTracker src (idled t)) p 0x14 .ok []))) ∧
    (HeadReady s p 0x14 src.val 1 1 →
      let r := s.setRoute src { s.route src with trigger := .level }
      let pending := { t with state := .pending, holder := none, merged := false, again := false }
      (busy → exec (.trig p) s = .next (replied s p 0x14 .busy [])) ∧
      (¬ busy → (s.route src).autodone = true → exec (.trig p) s = .next (replied s p 0x14 .badCombo [])) ∧
      (¬ busy → (s.route src).autodone = false → t.line = false →
        exec (.trig p) s = .next (replied (r.setTracker src (idled t)) p 0x14 .ok [])) ∧
      (¬ busy → (s.route src).autodone = false → t.line = true → t.state = .pending →
        exec (.trig p) s = .next (replied (r.setTracker src pending) p 0x14 .ok [])) ∧
      (¬ busy → (s.route src).autodone = false → t.line = true → t.state = .idle →
        exec (.trig p) s = .next (replied (dispatchPass (r.setTracker src pending)) p 0x14 .ok [])))

/-- AUTO sets autodone, but for BUSY in service and BADCOMBO for on with LEVEL (R29); LIMIT sets the limit class
(R30); neither starts a pass. -/
def Obligations.AutoAndLimitSetTheRoute : Prop :=
  ∀ (p : Master) (src : Source) (s : State), (s.ctx p).portState = .online → MayConfigure s p src →
    (HeadReady s p 0x15 src.val 0 1 →
      ((s.tracker src).state = .inService → exec (.auto p) s = .next (replied s p 0x15 .busy [])) ∧
      ((s.tracker src).state ≠ .inService →
        exec (.auto p) s = .next (replied (s.setRoute src { s.route src with autodone := false }) p 0x15 .ok []))) ∧
    (HeadReady s p 0x15 src.val 1 1 →
      ((s.tracker src).state = .inService → exec (.auto p) s = .next (replied s p 0x15 .busy [])) ∧
      ((s.tracker src).state ≠ .inService → (s.route src).trigger = .level →
        exec (.auto p) s = .next (replied s p 0x15 .badCombo [])) ∧
      ((s.tracker src).state ≠ .inService → (s.route src).trigger = .edge →
        exec (.auto p) s = .next (replied (s.setRoute src { s.route src with autodone := true }) p 0x15 .ok []))) ∧
    (∀ c : Fin 4, HeadReady s p 0x16 src.val c.val 1 →
      exec (.limit p) s = .next (replied (s.setRoute src { s.route src with limitClass := c }) p 0x16 .ok []))

/-- ENABLE sets the field and starts a pass (R31); DISABLE clears it and withdraws the offer of the source, with a
pass only then (R32, R69). -/
def Obligations.EnableAndDisableSetTheRoute : Prop :=
  ∀ (p : Master) (src : Source) (s : State), (s.ctx p).portState = .online → MayConfigure s p src →
    (HeadReady s p 0x17 src.val 0 1 →
      exec (.enable p) s = .next (replied
        (dispatchPass (s.setRoute src { s.route src with enabled := true })) p 0x17 .ok [])) ∧
    (HeadReady s p 0x18 src.val 0 1 →
      let r := s.setRoute src { s.route src with enabled := false }
      (∀ m, (s.tracker src).state = .offered → (s.tracker src).holder = some m →
        exec (.disable p) s = .next (replied
          (dispatchPass ((r.setTracker src (waiting (s.tracker src))).setOffer m none)) p 0x18 .ok [])) ∧
      ((s.tracker src).state ≠ .offered → exec (.disable p) s = .next (replied r p 0x18 .ok [])))

/-- The permission of the ten configuration commands (R19): a caller that is not the binder is refused NOTOWNER, and
HEIR and UNBIND on an unbound route are refused STATE; nothing else changes. A recognised reset is taken before the
execution (log 22). -/
def Obligations.ConfigurationNeedsTheBinder : Prop :=
  ∀ (p : Master) (c : Code) (w : Word) (s : State), c ∈ configurationCodes →
    (s.port p).commands.head? = some w → codeField w = codeByte c →
    operandsOk c (operandA w) (operandB w) = true → (s.port p).replies.length + 1 ≤ 16 →
    NoResetWaits s → (s.ctx p).portState = .online →
    let src := if c = .flush then signalSource (signalOf (operandA w)) else sourceOf (operandA w)
    (∀ m, (s.route src).binder = some m → m ≠ p →
      exec (Instr.execution p c) s = .next (replied s p (codeByte c).toNat .notOwner [])) ∧
    ((s.route src).binder = none → c = .heir ∨ c = .unbind →
      exec (Instr.execution p c) s = .next (replied s p (codeByte c).toNat .state []))

/-! Signal queues -/

/-- RAISE appends an entry of the caller and its payload, and makes an IDLE source PENDING with a pass; on four
entries it is refused FULL (R133, R134). Any ONLINE master may raise. -/
def Obligations.RaiseAppendsASignal : Prop :=
  ∀ (p : Master) (g : SignalIndex) (payload : Payload) (s : State),
    HeadReady s p 0x1A g.val payload.toNat 1 → (s.ctx p).portState = .online →
    let src := signalSource g
    let q := s.setQueue g (s.queue g ++ [{ sender := p, payload := payload }])
    ((s.queue g).length < 4 → (s.tracker src).state = .idle →
      exec (.raise p) s = .next (replied
        (dispatchPass (q.setTracker src { s.tracker src with state := .pending })) p 0x1A .ok [])) ∧
    ((s.queue g).length < 4 → (s.tracker src).state ≠ .idle →
      exec (.raise p) s = .next (replied q p 0x1A .ok [])) ∧
    (4 ≤ (s.queue g).length → exec (.raise p) s = .next (replied s p 0x1A .full []))

/-- FLUSH acts by the state of the source, as the table of R139 gives, starts no pass and tells no sender. -/
def Obligations.FlushActsByState : Prop :=
  ∀ (p : Master) (g : SignalIndex) (s : State), HeadReady s p 0x19 g.val 0 1 → (s.ctx p).portState = .online →
    MayConfigure s p (signalSource g) →
    let src := signalSource g
    ((s.tracker src).state = .idle → exec (.flush p) s = .next (replied s p 0x19 .ok [])) ∧
    ((s.tracker src).state = .pending →
      exec (.flush p) s = .next (replied
        ((s.setQueue g []).setTracker src (idled (s.tracker src))) p 0x19 .ok [])) ∧
    ((s.tracker src).state = .offered ∨ (s.tracker src).state = .inService →
      exec (.flush p) s = .next (replied (s.setQueue g ((s.queue g).take 1)) p 0x19 .ok []))

/-! Queries and notices -/

/-- STATUS, READSTACK, READSRC, READROUTE, READQ and TIME answer OK in every port state with the words of the record
named, as it stands, and change nothing else (R59, R60, R17, R35, R142, R110). -/
def Obligations.QueriesAnswerAndChangeNothing : Prop :=
  ∀ (p : Master) (s : State),
    (∀ m : Master, HeadReady s p 0x20 m.val 0 3 →
      exec (.status p) s = .next (replied s p 0x20 .ok
        [statusWord m (s.ctx m) (s.offer m), (s.ctx m).maskSet])) ∧
    (∀ (m : Master) (first : Fin 8), HeadReady s p 0x21 m.val first.val 9 →
      exec (.readStack p) s = .next (replied s p 0x21 .ok
        ((((s.ctx m).stack.drop first.val).take 4).flatMap (fun e => [entryWord e, e.due.getD 0])))) ∧
    (∀ src : Source, HeadReady s p 0x22 src.val 0 2 →
      exec (.readSrc p) s = .next (replied s p 0x22 .ok [trackerWord src (s.tracker src)])) ∧
    (∀ src : Source, HeadReady s p 0x23 src.val 0 2 →
      exec (.readRoute p) s = .next (replied s p 0x23 .ok [routeWord src (s.route src)])) ∧
    (∀ g : SignalIndex, HeadReady s p 0x24 g.val 0 6 →
      exec (.readQ p) s = .next (replied s p 0x24 .ok
        (queueCountWord g (s.queue g) :: (s.queue g).map signalWord))) ∧
    (HeadReady s p 0x25 0 0 2 → exec (.time p) s = .next (replied s p 0x25 .ok [s.tick]))

/-- NOTICE removes and returns the caller's oldest notice, or answers NONE; either header carries the
notice-overflow flag, which is cleared (R161, R162). It is accepted in every port state. -/
def Obligations.NoticeReturnsTheOldest : Prop :=
  ∀ (p : Master) (s : State), HeadReady s p 0x26 0 0 2 →
    (∀ n rest, (s.port p).notices = n :: rest →
      exec (.notice p) s = .next (s.setPort p
        { repliedPort (s.port p) 0x26 .ok [noticeWord n] (s.port p).noticeOverflow with
          notices := rest, noticeOverflow := false })) ∧
    ((s.port p).notices = [] →
      exec (.notice p) s = .next (s.setPort p
        { repliedPort (s.port p) 0x26 .none [] (s.port p).noticeOverflow with
          notices := [], noticeOverflow := false }))

/-! Words -/

/-- The bits of the reply header, with the numbers of the statuses, the take word and the entry word (R167, R168). The
sender stands where R168 numbers it, in bits 19..18 (log 23). -/
def Obligations.HeaderAndTakeWordBits : Prop :=
  (∀ (code : BitVec 8) (st : Status) (count : Nat) (overrun lost : Bool), count ≤ 8 →
    let w := headerWord code st count overrun lost
    w.extractLsb' 24 8 = code ∧ w.extractLsb' 21 3 = 0 ∧
    (w.extractLsb' 16 5).toNat =
      (match st with
        | .empty => 0 | .ok => 1 | .none => 2 | .late => 3 | .notHeld => 4
        | .badCmd => 16 | .badArg => 17 | .notJoined => 18 | .state => 19 | .fenced => 20
        | .notOwner => 21 | .busy => 22 | .badCombo => 23 | .full => 24 | .notSole => 25) ∧
    (w.extractLsb' 12 4).toNat = count ∧ w.getLsbD 11 = overrun ∧ w.getLsbD 10 = lost ∧
    w.extractLsb' 0 10 = 0) ∧
  (∀ e : Entry,
    (takeWord e).getLsbD 31 = true ∧ (entryWord e).getLsbD 31 = e.due.isSome ∧
    ∀ w, w = takeWord e ∨ w = entryWord e →
      (w.extractLsb' 26 5).toNat = e.source.val ∧ (w.extractLsb' 23 3).toNat = e.urgency.val ∧
      w.getLsbD 22 = e.merged ∧
      (w.extractLsb' 20 2).toNat = (match e.via with | .ack => 1 | .take => 2 | .poll => 3) ∧
      (w.extractLsb' 18 2).toNat = (match e.signal with | some g => g.sender.val | none => 0) ∧
      w.extractLsb' 16 2 = 0 ∧
      w.extractLsb' 0 16 = (match e.signal with | some g => g.payload | none => 0))

/-- The bits of the tracker, route, context, queue and notice words (R169). The sender of a READQ entry stands in the bits
17..16 that R169 numbers, though R169 also calls them those of the take word, which R168 puts in 19..18: the model's
choice (log 23). -/
def Obligations.QueryWordBits : Prop :=
  (∀ (src : Source) (t : Tracker),
    let w := trackerWord src t
    w.extractLsb' 29 3 = 0 ∧ (w.extractLsb' 24 5).toNat = src.val ∧ w.extractLsb' 12 12 = 0 ∧
    w.extractLsb' 8 4 = t.passSet ∧ w.getLsbD 7 = (decide (src.val < 24) && t.line) ∧ w.getLsbD 6 = t.again ∧
    w.getLsbD 5 = t.merged ∧ (w.extractLsb' 3 2).toNat = (match t.holder with | some m => m.val | none => 0) ∧
    w.getLsbD 2 = t.holder.isSome ∧
    (w.extractLsb' 0 2).toNat =
      (match t.state with | .idle => 0 | .pending => 1 | .offered => 2 | .inService => 3)) ∧
  (∀ (src : Source) (r : Route),
    let w := routeWord src r
    w.extractLsb' 29 3 = 0 ∧ (w.extractLsb' 24 5).toNat = src.val ∧ w.extractLsb' 22 2 = 0 ∧
    (w.extractLsb' 20 2).toNat = r.last.val ∧
    (w.extractLsb' 18 2).toNat = (match r.heir with | some m => m.val | none => 0) ∧ w.getLsbD 17 = r.heir.isSome ∧
    (w.extractLsb' 15 2).toNat = (match r.binder with | some m => m.val | none => 0) ∧
    w.getLsbD 14 = r.binder.isSome ∧ w.getLsbD 13 = r.enabled ∧ (w.extractLsb' 11 2).toNat = r.limitClass.val ∧
    w.getLsbD 10 = r.autodone ∧ w.getLsbD 9 = (decide (src.val < 24) && decide (r.trigger = .level)) ∧
    (w.extractLsb' 6 3).toNat = r.urgency.val ∧
    (w.extractLsb' 4 2).toNat = (match r.policy with | .fixed => 0 | .rotate => 1 | .least => 2) ∧
    w.extractLsb' 0 4 = r.targets) ∧
  (∀ (m : Master) (c : Context) (o : Option Offer), c.reclaimed.length ≤ 8 → c.stack.length ≤ 8 →
    c.missCount ≤ 7 →
    let w := statusWord m c o
    w.extractLsb' 30 2 = 0 ∧ (w.extractLsb' 28 2).toNat = m.val ∧ w.extractLsb' 25 3 = 0 ∧
    (w.extractLsb' 21 4).toNat = c.reclaimed.length ∧
    (w.extractLsb' 16 5).toNat = (match o with | some x => x.source.val | none => 0) ∧ w.getLsbD 15 = o.isSome ∧
    (w.extractLsb' 12 3).toNat = c.missCount ∧ (w.extractLsb' 8 4).toNat = c.stack.length ∧
    w.getLsbD 7 = decide (c.lineMode = .quiet) ∧ w.getLsbD 6 = decide (c.nesting = .openMode) ∧
    (w.extractLsb' 2 4).toNat = c.threshold.val ∧
    (w.extractLsb' 0 2).toNat =
      (match c.portState with | .offline => 0 | .online => 1 | .leaving => 2 | .fenced => 3)) ∧
  (∀ (g : SignalIndex) (q : List Signal), q.length ≤ 4 →
    let w := queueCountWord g q
    w.extractLsb' 27 5 = 0 ∧ (w.extractLsb' 24 3).toNat = g.val ∧ w.extractLsb' 3 21 = 0 ∧
    (w.extractLsb' 0 3).toNat = q.length) ∧
  (∀ e : Signal,
    (signalWord e).extractLsb' 18 14 = 0 ∧ ((signalWord e).extractLsb' 16 2).toNat = e.sender.val ∧
    (signalWord e).extractLsb' 0 16 = e.payload) ∧
  (∀ (m : Master) (src : Source) (charged : Bool),
    noticeWord (.joined m) = BitVec.ofNat 32 (16 * m.val + 1) ∧
    noticeWord (.left m) = BitVec.ofNat 32 (16 * m.val + 2) ∧
    noticeWord (.fenced m) = BitVec.ofNat 32 (16 * m.val + 3) ∧
    noticeWord (.reclaimed src charged) = BitVec.ofNat 32 (32768 * charged.toNat + 256 * src.val + 4) ∧
    noticeWord (.inherited src) = BitVec.ofNat 32 (256 * src.val + 5))

/-- The port status word (R170): its fields while the window is operative and IACK is released, zero while PRSTn or
HRST is held (R50, R159), and 00000004H of a port at its reset values, after either reset. While IACK is asserted the
data lines carry its take word instead (R156). Its INTQ bit is the output INTQ, which is the offer record's presence and
low while PRSTn or HRST is held, from the recognition of its assertion to that of its release (R49, R155, R157, R159).
That the read is a function is log 12, and that INTQ is computed log 14. -/
def Obligations.PortStatusWordBits : Prop :=
  ∀ (s : State) (p : Master),
    (ReadsOpen s p →
      (s.port p).notices.length ≤ 8 → (s.port p).replies.length ≤ 16 → (s.port p).commands.length ≤ 4 →
      ∃ w, pstatRead s p = some w ∧
      w.extractLsb' 29 3 = 0 ∧ w.getLsbD 28 = (s.port p).overrun ∧ w.extractLsb' 24 4 = 0 ∧
      (w.extractLsb' 20 4).toNat = (s.port p).notices.length ∧ w.extractLsb' 18 2 = 0 ∧
      (w.extractLsb' 16 2).toNat =
        (match (s.ctx p).portState with | .offline => 0 | .online => 1 | .leaving => 2 | .fenced => 3) ∧
      w.extractLsb' 13 3 = 0 ∧ w.getLsbD 12 = (s.offer p).isSome ∧ s.intq p = w.getLsbD 12 ∧ w.extractLsb' 9 3 = 0 ∧
      (w.extractLsb' 4 5).toNat = (s.port p).replies.length ∧ w.getLsbD 3 = false ∧
      (w.extractLsb' 0 3).toNat + (s.port p).commands.length = 4) ∧
    (¬ ResetHeld s p → s.intq p = (s.offer p).isSome) ∧
    (ResetHeld s p → pstatRead s p = some 0 ∧ s.intq p = false) ∧
    (ReadsOpen s p → (s.port p).commands = [] → (s.port p).replies = [] → (s.port p).notices = [] →
      (s.port p).overrun = false → (s.ctx p).portState = .offline → s.offer p = none →
      pstatRead s p = some 0x00000004)

/-! Checks before execution -/

/-- The checks of R151 before a command's own: a word of undefined code is answered BADCMD, whatever its operands
(R166); a bad operand BADARG; a command its port state does not accept NOTJOINED, STATE or FENCED (R40). Each
refusal changes nothing but the port it is answered at. A recognised reset is taken before the execution (log 22). -/
def Obligations.RefusalsChangeOnlyTheReply : Prop :=
  ∀ (p : Master) (w : Word) (s : State), (s.port p).commands.head? = some w → NoResetWaits s →
    (codeField w = 0 ∨ 0x26 < codeField w → (s.port p).replies.length + 1 ≤ 16 →
      exec (.undefinedCode p) s = .next (replied s p (codeField w).toNat .badCmd [])) ∧
    (∀ c, codeField w = codeByte c → (s.port p).replies.length + reservedWords c ≤ 16 →
      (operandsOk c (operandA w) (operandB w) = false →
        exec (Instr.execution p c) s = .next (replied s p (codeField w).toNat .badArg [])) ∧
      (operandsOk c (operandA w) (operandB w) = true →
        ((s.ctx p).portState = .offline → c ≠ .join → c ∉ queryCodes →
          exec (Instr.execution p c) s = .next (replied s p (codeField w).toNat .notJoined [])) ∧
        ((s.ctx p).portState = .leaving → c ≠ .done → c ≠ .doneSrc → c ∉ queryCodes →
          exec (Instr.execution p c) s = .next (replied s p (codeField w).toNat .state [])) ∧
        ((s.ctx p).portState = .fenced → c ∉ queryCodes →
          exec (Instr.execution p c) s = .next (replied s p (codeField w).toNat .fenced []))))

/-- The operand ranges of the table of R165, with an unused field zero, and the fields of the command word (R166). -/
def Obligations.OperandRangesOfTheCodeTable : Prop :=
  (∀ (code a : BitVec 8) (b : BitVec 16),
    (commandWord code a b).toNat = 16777216 * code.toNat + 65536 * a.toNat + b.toNat ∧
    codeField (commandWord code a b) = code ∧ operandA (commandWord code a b) = a ∧
    operandB (commandWord code a b) = b) ∧
  ∀ (c : Code) (a : BitVec 8) (b : BitVec 16), operandsOk c a b = true ↔
    match c with
    | .join | .leave | .nest | .openMode | .quiet | .loud | .pass | .take | .poll | .done | .time | .notice =>
      a.toNat = 0 ∧ b.toNat = 0
    | .fence | .unfence | .status => a.toNat ≤ 3 ∧ b.toNat = 0
    | .mask | .unmask | .bind | .unbind | .enable | .disable | .doneSrc | .readSrc | .readRoute =>
      a.toNat ≤ 31 ∧ b.toNat = 0
    | .thresh => a.toNat ≤ 8 ∧ b.toNat = 0
    | .setOffer => b.toNat = 0
    | .setFence => 1 ≤ a.toNat ∧ a.toNat ≤ 7 ∧ b.toNat = 0
    | .setClass => 1 ≤ a.toNat ∧ a.toNat ≤ 3 ∧ 1 ≤ b.toNat
    | .heir => a.toNat ≤ 31 ∧ b.toNat ≤ 4
    | .route => a.toNat ≤ 31 ∧ b.extractLsb' 6 10 = 0 ∧ (b.extractLsb' 4 2).toNat ≤ 2
    | .urge => a.toNat ≤ 31 ∧ b.toNat ≤ 7
    | .trig => a.toNat ≤ 23 ∧ b.toNat ≤ 1
    | .auto => a.toNat ≤ 31 ∧ b.toNat ≤ 1
    | .limit => a.toNat ≤ 31 ∧ b.toNat ≤ 3
    | .readStack => a.toNat ≤ 3 ∧ b.toNat ≤ 7
    | .raise => a.toNat ≤ 7
    | .flush | .readQ => a.toNat ≤ 7 ∧ b.toNat = 0

/-- A head word executes when the reply queue has the room R150 reserves for its code, and waits, changing nothing,
when it has not (R149). Executed, it leaves the command queue whole, and one reply no longer than the reservation is
appended whole, for signal queues within their size (R152). That a row whose head cannot execute changes nothing is
the model's choice (log 3), and a recognised reset is taken before the execution (log 22). -/
def Obligations.HeadExecutesWithinItsReservation : Prop :=
  ∀ (p : Master) (s : State), SignalQueuesBounded s →
    (∀ c,
      let need := match c with
        | .readStack => 9
        | .readQ => 6
        | .status => 3
        | .take | .poll | .readSrc | .readRoute | .time | .notice => 2
        | _ => 1
      (16 < (s.port p).replies.length + need → exec (Instr.execution p c) s = .next s) ∧
      (∀ w, (s.port p).commands.head? = some w → codeField w = codeByte c →
        (s.port p).replies.length + need ≤ 16 → NoResetWaits s →
        ∃ t reply, exec (Instr.execution p c) s = .next t ∧
          (t.port p).commands = (s.port p).commands.tail ∧
          (t.port p).replies = (s.port p).replies ++ reply ∧ 1 ≤ reply.length ∧ reply.length ≤ need)) ∧
    (16 < (s.port p).replies.length + 1 → exec (.undefinedCode p) s = .next s)

/-! The dispatcher -/

/-- A dispatch pass leaves no eligible master with an empty or less urgent slot while an offerable source waits
(R77). -/
def Obligations.PassLeavesNoFreeSlotWaiting : Prop :=
  ∀ s : State, OffersMatch s → NoneWaitsBeforeFreeSlot (dispatchPass s)

/-- After a dispatch pass every standing offer qualifies: its source is enabled and eligible for its holder (R70). -/
def Obligations.PassLeavesOnlyQualifyingOffers : Prop := ∀ s : State, OffersQualify (dispatchPass s)

/-- A pass keeps an offer that qualifies, its source enabled and eligible (R70), with its holder, unless a strictly
more urgent source replaces it there with a new expires (R74, R75, R76). -/
def Obligations.PassKeepsOrReplacesStandingOffers : Prop :=
  ∀ (s : State) (m : Master) (o : Offer), s.offer m = some o →
    (s.route o.source).enabled = true → eligible s o.source m = true →
    ∃ o', (dispatchPass s).offer m = some o' ∧
      (o' = o ∨
        ((s.route o.source).urgency < (s.route o'.source).urgency ∧ o'.raised = false ∧
          o'.expires = if s.settings.offerLimit = 0 then none
            else some (s.tick + s.settings.offerLimit.setWidth 32)))

/-- The consideration of an offerable source: its pass set is cleared when some target is ONLINE and every ONLINE
target is in it (R72); then the first master of the preference list whose record is empty or less urgent receives
it (R73), by replacement in the second case (R74), with the new expires (R75); else nothing more changes. -/
def Obligations.ConsiderationPlacesTheSource : Prop :=
  ∀ (s : State) (src : Source), offerable s src = true →
    let holds := fun m => ∃ o, s.offer m = some o ∧ (s.route src).urgency ≤ (s.route o.source).urgency
    let covered := (∃ m, setHas (s.route src).targets m = true ∧ s.online m = true) ∧
      ∀ m, setHas (s.route src).targets m = true → s.online m = true → setHas (s.tracker src).passSet m = true
    ∃ c : State,
      (covered → c = s.setTracker src { s.tracker src with passSet := 0 }) ∧ (¬ covered → c = s) ∧
      (((∀ m ∈ preference c src, holds m) ∧ consider s src = c) ∨
       ∃ l m r, preference c src = l ++ m :: r ∧ (∀ k ∈ l, holds k) ∧ ¬ holds m ∧
         consider s src =
           ((withdrawnOffer c m).setTracker src
             { (withdrawnOffer c m).tracker src with state := .offered, holder := some m }).setOffer m
             (some { source := src, raised := false,
                     expires := if s.settings.offerLimit = 0 then none
                       else some (s.tick + s.settings.offerLimit.setWidth 32) }))

/-- The order of a preference list and of the walk: the list holds exactly the eligible masters, ordered by the
policy (R66, R67); the walk visits every source once, most urgent first, lower number first among equals (R71). -/
def Obligations.PreferenceAndWalkOrder : Prop :=
  ∀ (s : State),
    (∀ src m, m ∈ preference s src ↔ eligible s src m = true) ∧
    (∀ src, (preference s src).Pairwise (fun a b =>
      match (s.route src).policy with
      | .fixed => a < b
      | .rotate => a - (s.route src).last - 1 < b - (s.route src).last - 1
      | .least => (s.ctx a).stack.length < (s.ctx b).stack.length ∨
          ((s.ctx a).stack.length = (s.ctx b).stack.length ∧ a < b))) ∧
    (∀ src, src ∈ passOrder s) ∧
    (passOrder s).Pairwise (fun i j =>
      (s.route j).urgency < (s.route i).urgency ∨ ((s.route j).urgency = (s.route i).urgency ∧ i < j))

/-- The eight conditions under which a source is eligible for a master (R64), and the three under which it is
offerable (R65). -/
def Obligations.EligibleAndOfferableConditions : Prop :=
  ∀ (s : State) (src : Source) (m : Master),
    (eligible s src m = true ↔
      setHas (s.route src).targets m = true ∧ (s.ctx m).portState = .online ∧ (s.ctx m).lineMode = .line ∧
      setHas (s.tracker src).passSet m = false ∧ setHas (s.ctx m).maskSet src = false ∧
      UrgencySuits (s.route src).urgency (s.ctx m) ∧ (s.ctx m).stack.length < 8) ∧
    (offerable s src = true ↔
      (s.tracker src).state = .pending ∧ (s.route src).enabled = true ∧ (s.route src).targets ≠ 0)

/-! Invariants -/

/-- Every step keeps every invariant at once (R3, R6 to R8, R16, R18 to R23, R27, R29, R36, R37, R41, R50, R56, R62,
R70, R77, R78, R86, R112, R119, R122, R131, R132, R147, R152, R158 to R160). That what is taken of PRSTn, IACK and HRST
follows the level recognised, or its opposite while a change waits, rests on the model's readings of when such a
change is taken and of an IACK held through a reset (logs 8, 9, 10, 22), and what is taken of a REQ line between
HUB_RESET and its release on the low levels the model gives it there (log 24). -/
def Obligations.EveryStepKeepsConsistent : Prop :=
  ∀ s t : State, Consistent s → step s = .next t → Consistent t

/-- Every step keeps offer records, in-service stacks and trackers naming the same pairs (R6, R7, R62). -/
def Obligations.EveryStepKeepsOffersAndStacksMatched : Prop :=
  ∀ s t : State, HolderPresent s → OffersMatch s → StacksMatch s → step s = .next t →
    HolderPresent t ∧ OffersMatch t ∧ StacksMatch t

/-- Every step keeps every port queue and every signal queue within its size (R131, R132, R147, R149, R152, R153,
R160). -/
def Obligations.EveryStepKeepsQueuesBounded : Prop :=
  ∀ s t : State, PortQueuesBounded s → SignalQueuesBounded s → step s = .next t →
    PortQueuesBounded t ∧ SignalQueuesBounded t

/-- Every step keeps every binder ONLINE or LEAVING, with an heir only beside a binder it differs from (R19 to
R23). -/
def Obligations.EveryStepKeepsBindersPresent : Prop :=
  ∀ s t : State, BindersPresent s → step s = .next t → BindersPresent t

/-- Every step keeps each miss count below the fence threshold, and that threshold from 1 to 7; and it keeps the
stacks and counts of OFFLINE and FENCED masters empty, the notices and reclaimed lists of OFFLINE masters empty, and
offers with ONLINE masters in LINE mode (R37, R78, R122, R160). -/
def Obligations.EveryStepKeepsAwayMastersCleared : Prop :=
  ∀ s t : State,
    (MissesBelowThreshold s → step s = .next t → MissesBelowThreshold t) ∧
    (AwayStackEmpty s → OfflineCleared s → OffersOnline s → step s = .next t →
      AwayStackEmpty t ∧ OfflineCleared t ∧ OffersOnline t)

/-- A master's mask set, threshold and modes change only by its own MASK, UNMASK, THRESH, NEST, OPEN, QUIET and LOUD,
by its own port reset and by hub reset (R38): no other row, and no other master, reaches them. -/
def Obligations.OnlyItsOwnCommandsSetAMaster : Prop :=
  ∀ (c : Instr) (m : Master) (s t : State), exec c s = .next t →
    c ∉ [.mask m, .unmask m, .thresh m, .nest m, .openMode m, .quiet m, .loud m, .portReset m, .hubReset] →
    (t.ctx m).maskSet = (s.ctx m).maskSet ∧ (t.ctx m).threshold = (s.ctx m).threshold ∧
    (t.ctx m).nesting = (s.ctx m).nesting ∧ (t.ctx m).lineMode = (s.ctx m).lineMode
end

