-- ==== Sys2Proof/Laws/State.lean ====
section
/-! SUPPORT. The small lemmas of the state: what each record update leaves of each record and field. Later proofs
rewrite with these and unfold no update. -/

namespace Sys2Proof.Machine

variable (s : State)

/-! `setTracker` -/

@[simp] theorem setTracker_hubHeld (i : Source) (x : Tracker) : (s.setTracker i x).hubHeld = s.hubHeld := rfl
@[simp] theorem setTracker_inputs (i : Source) (x : Tracker) : (s.setTracker i x).inputs = s.inputs := rfl
@[simp] theorem setTracker_routes (i : Source) (x : Tracker) : (s.setTracker i x).routes = s.routes := rfl
@[simp] theorem setTracker_contexts (i : Source) (x : Tracker) : (s.setTracker i x).contexts = s.contexts := rfl
@[simp] theorem setTracker_offers (i : Source) (x : Tracker) : (s.setTracker i x).offers = s.offers := rfl
@[simp] theorem setTracker_period (i : Source) (x : Tracker) : (s.setTracker i x).period = s.period := rfl
@[simp] theorem setTracker_tick (i : Source) (x : Tracker) : (s.setTracker i x).tick = s.tick := rfl
@[simp] theorem setTracker_settings (i : Source) (x : Tracker) : (s.setTracker i x).settings = s.settings := rfl
@[simp] theorem setTracker_queues (i : Source) (x : Tracker) : (s.setTracker i x).queues = s.queues := rfl
@[simp] theorem setTracker_ports (i : Source) (x : Tracker) : (s.setTracker i x).ports = s.ports := rfl
@[simp] theorem setTracker_pending (i : Source) (x : Tracker) : (s.setTracker i x).pending = s.pending := rfl
theorem setTracker_tracker (i : Source) (x : Tracker) (j : Source) : (s.setTracker i x).tracker j = if i = j then x else s.tracker j := by
  simp [State.setTracker, State.tracker, Vector.getElem_set, Fin.ext_iff]
@[simp] theorem setTracker_tracker_self (i : Source) (x : Tracker) : (s.setTracker i x).tracker i = x := by simp [setTracker_tracker]
@[simp] theorem setTracker_tracker_ne (i : Source) (x : Tracker) (j : Source) (h : i ≠ j) : (s.setTracker i x).tracker j = s.tracker j := by
  simp [setTracker_tracker, h]
@[simp] theorem setTracker_setTracker (i : Source) (x : Tracker) (y : Tracker) : (s.setTracker i x).setTracker i y = s.setTracker i y := by
  simp [State.setTracker]
@[simp] theorem setTracker_get (i : Source) : s.setTracker i (s.tracker i) = s := by
  simp [State.setTracker, State.tracker]
@[simp] theorem setTracker_route (i : Source) (x : Tracker) (j : Source) : (s.setTracker i x).route j = s.route j := rfl
@[simp] theorem setTracker_ctx (i : Source) (x : Tracker) (j : Master) : (s.setTracker i x).ctx j = s.ctx j := rfl
@[simp] theorem setTracker_offer (i : Source) (x : Tracker) (j : Master) : (s.setTracker i x).offer j = s.offer j := rfl
@[simp] theorem setTracker_queue (i : Source) (x : Tracker) (j : SignalIndex) : (s.setTracker i x).queue j = s.queue j := rfl
@[simp] theorem setTracker_port (i : Source) (x : Tracker) (j : Master) : (s.setTracker i x).port j = s.port j := rfl

/-! `setRoute` -/

@[simp] theorem setRoute_hubHeld (i : Source) (x : Route) : (s.setRoute i x).hubHeld = s.hubHeld := rfl
@[simp] theorem setRoute_inputs (i : Source) (x : Route) : (s.setRoute i x).inputs = s.inputs := rfl
@[simp] theorem setRoute_trackers (i : Source) (x : Route) : (s.setRoute i x).trackers = s.trackers := rfl
@[simp] theorem setRoute_contexts (i : Source) (x : Route) : (s.setRoute i x).contexts = s.contexts := rfl
@[simp] theorem setRoute_offers (i : Source) (x : Route) : (s.setRoute i x).offers = s.offers := rfl
@[simp] theorem setRoute_period (i : Source) (x : Route) : (s.setRoute i x).period = s.period := rfl
@[simp] theorem setRoute_tick (i : Source) (x : Route) : (s.setRoute i x).tick = s.tick := rfl
@[simp] theorem setRoute_settings (i : Source) (x : Route) : (s.setRoute i x).settings = s.settings := rfl
@[simp] theorem setRoute_queues (i : Source) (x : Route) : (s.setRoute i x).queues = s.queues := rfl
@[simp] theorem setRoute_ports (i : Source) (x : Route) : (s.setRoute i x).ports = s.ports := rfl
@[simp] theorem setRoute_pending (i : Source) (x : Route) : (s.setRoute i x).pending = s.pending := rfl
@[simp] theorem setRoute_tracker (i : Source) (x : Route) (j : Source) : (s.setRoute i x).tracker j = s.tracker j := rfl
theorem setRoute_route (i : Source) (x : Route) (j : Source) : (s.setRoute i x).route j = if i = j then x else s.route j := by
  simp [State.setRoute, State.route, Vector.getElem_set, Fin.ext_iff]
@[simp] theorem setRoute_route_self (i : Source) (x : Route) : (s.setRoute i x).route i = x := by simp [setRoute_route]
@[simp] theorem setRoute_route_ne (i : Source) (x : Route) (j : Source) (h : i ≠ j) : (s.setRoute i x).route j = s.route j := by
  simp [setRoute_route, h]
@[simp] theorem setRoute_setRoute (i : Source) (x : Route) (y : Route) : (s.setRoute i x).setRoute i y = s.setRoute i y := by
  simp [State.setRoute]
@[simp] theorem setRoute_get (i : Source) : s.setRoute i (s.route i) = s := by
  simp [State.setRoute, State.route]
@[simp] theorem setRoute_ctx (i : Source) (x : Route) (j : Master) : (s.setRoute i x).ctx j = s.ctx j := rfl
@[simp] theorem setRoute_offer (i : Source) (x : Route) (j : Master) : (s.setRoute i x).offer j = s.offer j := rfl
@[simp] theorem setRoute_queue (i : Source) (x : Route) (j : SignalIndex) : (s.setRoute i x).queue j = s.queue j := rfl
@[simp] theorem setRoute_port (i : Source) (x : Route) (j : Master) : (s.setRoute i x).port j = s.port j := rfl

/-! `setCtx` -/

@[simp] theorem setCtx_hubHeld (i : Master) (x : Context) : (s.setCtx i x).hubHeld = s.hubHeld := rfl
@[simp] theorem setCtx_inputs (i : Master) (x : Context) : (s.setCtx i x).inputs = s.inputs := rfl
@[simp] theorem setCtx_trackers (i : Master) (x : Context) : (s.setCtx i x).trackers = s.trackers := rfl
@[simp] theorem setCtx_routes (i : Master) (x : Context) : (s.setCtx i x).routes = s.routes := rfl
@[simp] theorem setCtx_offers (i : Master) (x : Context) : (s.setCtx i x).offers = s.offers := rfl
@[simp] theorem setCtx_period (i : Master) (x : Context) : (s.setCtx i x).period = s.period := rfl
@[simp] theorem setCtx_tick (i : Master) (x : Context) : (s.setCtx i x).tick = s.tick := rfl
@[simp] theorem setCtx_settings (i : Master) (x : Context) : (s.setCtx i x).settings = s.settings := rfl
@[simp] theorem setCtx_queues (i : Master) (x : Context) : (s.setCtx i x).queues = s.queues := rfl
@[simp] theorem setCtx_ports (i : Master) (x : Context) : (s.setCtx i x).ports = s.ports := rfl
@[simp] theorem setCtx_pending (i : Master) (x : Context) : (s.setCtx i x).pending = s.pending := rfl
@[simp] theorem setCtx_tracker (i : Master) (x : Context) (j : Source) : (s.setCtx i x).tracker j = s.tracker j := rfl
@[simp] theorem setCtx_route (i : Master) (x : Context) (j : Source) : (s.setCtx i x).route j = s.route j := rfl
theorem setCtx_ctx (i : Master) (x : Context) (j : Master) : (s.setCtx i x).ctx j = if i = j then x else s.ctx j := by
  simp [State.setCtx, State.ctx, Vector.getElem_set, Fin.ext_iff]
@[simp] theorem setCtx_ctx_self (i : Master) (x : Context) : (s.setCtx i x).ctx i = x := by simp [setCtx_ctx]
@[simp] theorem setCtx_ctx_ne (i : Master) (x : Context) (j : Master) (h : i ≠ j) : (s.setCtx i x).ctx j = s.ctx j := by
  simp [setCtx_ctx, h]
@[simp] theorem setCtx_setCtx (i : Master) (x : Context) (y : Context) : (s.setCtx i x).setCtx i y = s.setCtx i y := by
  simp [State.setCtx]
@[simp] theorem setCtx_get (i : Master) : s.setCtx i (s.ctx i) = s := by
  simp [State.setCtx, State.ctx]
@[simp] theorem setCtx_offer (i : Master) (x : Context) (j : Master) : (s.setCtx i x).offer j = s.offer j := rfl
@[simp] theorem setCtx_queue (i : Master) (x : Context) (j : SignalIndex) : (s.setCtx i x).queue j = s.queue j := rfl
@[simp] theorem setCtx_port (i : Master) (x : Context) (j : Master) : (s.setCtx i x).port j = s.port j := rfl

/-! `setOffer` -/

@[simp] theorem setOffer_hubHeld (i : Master) (x : Option Offer) : (s.setOffer i x).hubHeld = s.hubHeld := rfl
@[simp] theorem setOffer_inputs (i : Master) (x : Option Offer) : (s.setOffer i x).inputs = s.inputs := rfl
@[simp] theorem setOffer_trackers (i : Master) (x : Option Offer) : (s.setOffer i x).trackers = s.trackers := rfl
@[simp] theorem setOffer_routes (i : Master) (x : Option Offer) : (s.setOffer i x).routes = s.routes := rfl
@[simp] theorem setOffer_contexts (i : Master) (x : Option Offer) : (s.setOffer i x).contexts = s.contexts := rfl
@[simp] theorem setOffer_period (i : Master) (x : Option Offer) : (s.setOffer i x).period = s.period := rfl
@[simp] theorem setOffer_tick (i : Master) (x : Option Offer) : (s.setOffer i x).tick = s.tick := rfl
@[simp] theorem setOffer_settings (i : Master) (x : Option Offer) : (s.setOffer i x).settings = s.settings := rfl
@[simp] theorem setOffer_queues (i : Master) (x : Option Offer) : (s.setOffer i x).queues = s.queues := rfl
@[simp] theorem setOffer_ports (i : Master) (x : Option Offer) : (s.setOffer i x).ports = s.ports := rfl
@[simp] theorem setOffer_pending (i : Master) (x : Option Offer) : (s.setOffer i x).pending = s.pending := rfl
@[simp] theorem setOffer_tracker (i : Master) (x : Option Offer) (j : Source) : (s.setOffer i x).tracker j = s.tracker j := rfl
@[simp] theorem setOffer_route (i : Master) (x : Option Offer) (j : Source) : (s.setOffer i x).route j = s.route j := rfl
@[simp] theorem setOffer_ctx (i : Master) (x : Option Offer) (j : Master) : (s.setOffer i x).ctx j = s.ctx j := rfl
theorem setOffer_offer (i : Master) (x : Option Offer) (j : Master) : (s.setOffer i x).offer j = if i = j then x else s.offer j := by
  simp [State.setOffer, State.offer, Vector.getElem_set, Fin.ext_iff]
@[simp] theorem setOffer_offer_self (i : Master) (x : Option Offer) : (s.setOffer i x).offer i = x := by simp [setOffer_offer]
@[simp] theorem setOffer_offer_ne (i : Master) (x : Option Offer) (j : Master) (h : i ≠ j) : (s.setOffer i x).offer j = s.offer j := by
  simp [setOffer_offer, h]
@[simp] theorem setOffer_setOffer (i : Master) (x : Option Offer) (y : Option Offer) : (s.setOffer i x).setOffer i y = s.setOffer i y := by
  simp [State.setOffer]
@[simp] theorem setOffer_get (i : Master) : s.setOffer i (s.offer i) = s := by
  simp [State.setOffer, State.offer]
@[simp] theorem setOffer_queue (i : Master) (x : Option Offer) (j : SignalIndex) : (s.setOffer i x).queue j = s.queue j := rfl
@[simp] theorem setOffer_port (i : Master) (x : Option Offer) (j : Master) : (s.setOffer i x).port j = s.port j := rfl

/-! `setQueue` -/

@[simp] theorem setQueue_hubHeld (i : SignalIndex) (x : List Signal) : (s.setQueue i x).hubHeld = s.hubHeld := rfl
@[simp] theorem setQueue_inputs (i : SignalIndex) (x : List Signal) : (s.setQueue i x).inputs = s.inputs := rfl
@[simp] theorem setQueue_trackers (i : SignalIndex) (x : List Signal) : (s.setQueue i x).trackers = s.trackers := rfl
@[simp] theorem setQueue_routes (i : SignalIndex) (x : List Signal) : (s.setQueue i x).routes = s.routes := rfl
@[simp] theorem setQueue_contexts (i : SignalIndex) (x : List Signal) : (s.setQueue i x).contexts = s.contexts := rfl
@[simp] theorem setQueue_offers (i : SignalIndex) (x : List Signal) : (s.setQueue i x).offers = s.offers := rfl
@[simp] theorem setQueue_period (i : SignalIndex) (x : List Signal) : (s.setQueue i x).period = s.period := rfl
@[simp] theorem setQueue_tick (i : SignalIndex) (x : List Signal) : (s.setQueue i x).tick = s.tick := rfl
@[simp] theorem setQueue_settings (i : SignalIndex) (x : List Signal) : (s.setQueue i x).settings = s.settings := rfl
@[simp] theorem setQueue_ports (i : SignalIndex) (x : List Signal) : (s.setQueue i x).ports = s.ports := rfl
@[simp] theorem setQueue_pending (i : SignalIndex) (x : List Signal) : (s.setQueue i x).pending = s.pending := rfl
@[simp] theorem setQueue_tracker (i : SignalIndex) (x : List Signal) (j : Source) : (s.setQueue i x).tracker j = s.tracker j := rfl
@[simp] theorem setQueue_route (i : SignalIndex) (x : List Signal) (j : Source) : (s.setQueue i x).route j = s.route j := rfl
@[simp] theorem setQueue_ctx (i : SignalIndex) (x : List Signal) (j : Master) : (s.setQueue i x).ctx j = s.ctx j := rfl
@[simp] theorem setQueue_offer (i : SignalIndex) (x : List Signal) (j : Master) : (s.setQueue i x).offer j = s.offer j := rfl
theorem setQueue_queue (i : SignalIndex) (x : List Signal) (j : SignalIndex) : (s.setQueue i x).queue j = if i = j then x else s.queue j := by
  simp [State.setQueue, State.queue, Vector.getElem_set, Fin.ext_iff]
@[simp] theorem setQueue_queue_self (i : SignalIndex) (x : List Signal) : (s.setQueue i x).queue i = x := by simp [setQueue_queue]
@[simp] theorem setQueue_queue_ne (i : SignalIndex) (x : List Signal) (j : SignalIndex) (h : i ≠ j) : (s.setQueue i x).queue j = s.queue j := by
  simp [setQueue_queue, h]
@[simp] theorem setQueue_setQueue (i : SignalIndex) (x : List Signal) (y : List Signal) : (s.setQueue i x).setQueue i y = s.setQueue i y := by
  simp [State.setQueue]
@[simp] theorem setQueue_get (i : SignalIndex) : s.setQueue i (s.queue i) = s := by
  simp [State.setQueue, State.queue]
@[simp] theorem setQueue_port (i : SignalIndex) (x : List Signal) (j : Master) : (s.setQueue i x).port j = s.port j := rfl

/-! `setPort` -/

@[simp] theorem setPort_hubHeld (i : Master) (x : Port) : (s.setPort i x).hubHeld = s.hubHeld := rfl
@[simp] theorem setPort_inputs (i : Master) (x : Port) : (s.setPort i x).inputs = s.inputs := rfl
@[simp] theorem setPort_trackers (i : Master) (x : Port) : (s.setPort i x).trackers = s.trackers := rfl
@[simp] theorem setPort_routes (i : Master) (x : Port) : (s.setPort i x).routes = s.routes := rfl
@[simp] theorem setPort_contexts (i : Master) (x : Port) : (s.setPort i x).contexts = s.contexts := rfl
@[simp] theorem setPort_offers (i : Master) (x : Port) : (s.setPort i x).offers = s.offers := rfl
@[simp] theorem setPort_period (i : Master) (x : Port) : (s.setPort i x).period = s.period := rfl
@[simp] theorem setPort_tick (i : Master) (x : Port) : (s.setPort i x).tick = s.tick := rfl
@[simp] theorem setPort_settings (i : Master) (x : Port) : (s.setPort i x).settings = s.settings := rfl
@[simp] theorem setPort_queues (i : Master) (x : Port) : (s.setPort i x).queues = s.queues := rfl
@[simp] theorem setPort_pending (i : Master) (x : Port) : (s.setPort i x).pending = s.pending := rfl
@[simp] theorem setPort_tracker (i : Master) (x : Port) (j : Source) : (s.setPort i x).tracker j = s.tracker j := rfl
@[simp] theorem setPort_route (i : Master) (x : Port) (j : Source) : (s.setPort i x).route j = s.route j := rfl
@[simp] theorem setPort_ctx (i : Master) (x : Port) (j : Master) : (s.setPort i x).ctx j = s.ctx j := rfl
@[simp] theorem setPort_offer (i : Master) (x : Port) (j : Master) : (s.setPort i x).offer j = s.offer j := rfl
@[simp] theorem setPort_queue (i : Master) (x : Port) (j : SignalIndex) : (s.setPort i x).queue j = s.queue j := rfl
theorem setPort_port (i : Master) (x : Port) (j : Master) : (s.setPort i x).port j = if i = j then x else s.port j := by
  simp [State.setPort, State.port, Vector.getElem_set, Fin.ext_iff]
@[simp] theorem setPort_port_self (i : Master) (x : Port) : (s.setPort i x).port i = x := by simp [setPort_port]
@[simp] theorem setPort_port_ne (i : Master) (x : Port) (j : Master) (h : i ≠ j) : (s.setPort i x).port j = s.port j := by
  simp [setPort_port, h]
@[simp] theorem setPort_setPort (i : Master) (x : Port) (y : Port) : (s.setPort i x).setPort i y = s.setPort i y := by
  simp [State.setPort]
@[simp] theorem setPort_get (i : Master) : s.setPort i (s.port i) = s := by
  simp [State.setPort, State.port]

/-! `setInputs` -/

@[simp] theorem setInputs_hubHeld (x : Inputs) : (s.setInputs x).hubHeld = s.hubHeld := rfl
@[simp] theorem setInputs_inputs (x : Inputs) : (s.setInputs x).inputs = x := rfl
@[simp] theorem setInputs_trackers (x : Inputs) : (s.setInputs x).trackers = s.trackers := rfl
@[simp] theorem setInputs_routes (x : Inputs) : (s.setInputs x).routes = s.routes := rfl
@[simp] theorem setInputs_contexts (x : Inputs) : (s.setInputs x).contexts = s.contexts := rfl
@[simp] theorem setInputs_offers (x : Inputs) : (s.setInputs x).offers = s.offers := rfl
@[simp] theorem setInputs_period (x : Inputs) : (s.setInputs x).period = s.period := rfl
@[simp] theorem setInputs_tick (x : Inputs) : (s.setInputs x).tick = s.tick := rfl
@[simp] theorem setInputs_settings (x : Inputs) : (s.setInputs x).settings = s.settings := rfl
@[simp] theorem setInputs_queues (x : Inputs) : (s.setInputs x).queues = s.queues := rfl
@[simp] theorem setInputs_ports (x : Inputs) : (s.setInputs x).ports = s.ports := rfl
@[simp] theorem setInputs_pending (x : Inputs) : (s.setInputs x).pending = s.pending := rfl
@[simp] theorem setInputs_tracker (x : Inputs) (j : Source) : (s.setInputs x).tracker j = s.tracker j := rfl
@[simp] theorem setInputs_route (x : Inputs) (j : Source) : (s.setInputs x).route j = s.route j := rfl
@[simp] theorem setInputs_ctx (x : Inputs) (j : Master) : (s.setInputs x).ctx j = s.ctx j := rfl
@[simp] theorem setInputs_offer (x : Inputs) (j : Master) : (s.setInputs x).offer j = s.offer j := rfl
@[simp] theorem setInputs_queue (x : Inputs) (j : SignalIndex) : (s.setInputs x).queue j = s.queue j := rfl
@[simp] theorem setInputs_port (x : Inputs) (j : Master) : (s.setInputs x).port j = s.port j := rfl

/-! `setSettings` -/

@[simp] theorem setSettings_hubHeld (x : Settings) : (s.setSettings x).hubHeld = s.hubHeld := rfl
@[simp] theorem setSettings_inputs (x : Settings) : (s.setSettings x).inputs = s.inputs := rfl
@[simp] theorem setSettings_trackers (x : Settings) : (s.setSettings x).trackers = s.trackers := rfl
@[simp] theorem setSettings_routes (x : Settings) : (s.setSettings x).routes = s.routes := rfl
@[simp] theorem setSettings_contexts (x : Settings) : (s.setSettings x).contexts = s.contexts := rfl
@[simp] theorem setSettings_offers (x : Settings) : (s.setSettings x).offers = s.offers := rfl
@[simp] theorem setSettings_period (x : Settings) : (s.setSettings x).period = s.period := rfl
@[simp] theorem setSettings_tick (x : Settings) : (s.setSettings x).tick = s.tick := rfl
@[simp] theorem setSettings_settings (x : Settings) : (s.setSettings x).settings = x := rfl
@[simp] theorem setSettings_queues (x : Settings) : (s.setSettings x).queues = s.queues := rfl
@[simp] theorem setSettings_ports (x : Settings) : (s.setSettings x).ports = s.ports := rfl
@[simp] theorem setSettings_pending (x : Settings) : (s.setSettings x).pending = s.pending := rfl
@[simp] theorem setSettings_tracker (x : Settings) (j : Source) : (s.setSettings x).tracker j = s.tracker j := rfl
@[simp] theorem setSettings_route (x : Settings) (j : Source) : (s.setSettings x).route j = s.route j := rfl
@[simp] theorem setSettings_ctx (x : Settings) (j : Master) : (s.setSettings x).ctx j = s.ctx j := rfl
@[simp] theorem setSettings_offer (x : Settings) (j : Master) : (s.setSettings x).offer j = s.offer j := rfl
@[simp] theorem setSettings_queue (x : Settings) (j : SignalIndex) : (s.setSettings x).queue j = s.queue j := rfl
@[simp] theorem setSettings_port (x : Settings) (j : Master) : (s.setSettings x).port j = s.port j := rfl

/-! `withPending` -/

@[simp] theorem withPending_hubHeld (x : List Instr) : (s.withPending x).hubHeld = s.hubHeld := rfl
@[simp] theorem withPending_inputs (x : List Instr) : (s.withPending x).inputs = s.inputs := rfl
@[simp] theorem withPending_trackers (x : List Instr) : (s.withPending x).trackers = s.trackers := rfl
@[simp] theorem withPending_routes (x : List Instr) : (s.withPending x).routes = s.routes := rfl
@[simp] theorem withPending_contexts (x : List Instr) : (s.withPending x).contexts = s.contexts := rfl
@[simp] theorem withPending_offers (x : List Instr) : (s.withPending x).offers = s.offers := rfl
@[simp] theorem withPending_period (x : List Instr) : (s.withPending x).period = s.period := rfl
@[simp] theorem withPending_tick (x : List Instr) : (s.withPending x).tick = s.tick := rfl
@[simp] theorem withPending_settings (x : List Instr) : (s.withPending x).settings = s.settings := rfl
@[simp] theorem withPending_queues (x : List Instr) : (s.withPending x).queues = s.queues := rfl
@[simp] theorem withPending_ports (x : List Instr) : (s.withPending x).ports = s.ports := rfl
@[simp] theorem withPending_pending (x : List Instr) : (s.withPending x).pending = x := rfl
@[simp] theorem withPending_tracker (x : List Instr) (j : Source) : (s.withPending x).tracker j = s.tracker j := rfl
@[simp] theorem withPending_route (x : List Instr) (j : Source) : (s.withPending x).route j = s.route j := rfl
@[simp] theorem withPending_ctx (x : List Instr) (j : Master) : (s.withPending x).ctx j = s.ctx j := rfl
@[simp] theorem withPending_offer (x : List Instr) (j : Master) : (s.withPending x).offer j = s.offer j := rfl
@[simp] theorem withPending_queue (x : List Instr) (j : SignalIndex) : (s.withPending x).queue j = s.queue j := rfl
@[simp] theorem withPending_port (x : List Instr) (j : Master) : (s.withPending x).port j = s.port j := rfl

/-! The samplers under every update. -/

@[simp] theorem setTracker_reqLine (i : Source) (x : Tracker) (j : Line) :
    (s.setTracker i x).reqLine j = s.reqLine j := rfl
@[simp] theorem setTracker_prstInput (i : Source) (x : Tracker) (j : Master) :
    (s.setTracker i x).prstInput j = s.prstInput j := rfl
@[simp] theorem setTracker_iackInput (i : Source) (x : Tracker) (j : Master) :
    (s.setTracker i x).iackInput j = s.iackInput j := rfl
@[simp] theorem setRoute_reqLine (i : Source) (x : Route) (j : Line) : (s.setRoute i x).reqLine j = s.reqLine j := rfl
@[simp] theorem setRoute_prstInput (i : Source) (x : Route) (j : Master) :
    (s.setRoute i x).prstInput j = s.prstInput j := rfl
@[simp] theorem setRoute_iackInput (i : Source) (x : Route) (j : Master) :
    (s.setRoute i x).iackInput j = s.iackInput j := rfl
@[simp] theorem setCtx_reqLine (i : Master) (x : Context) (j : Line) : (s.setCtx i x).reqLine j = s.reqLine j := rfl
@[simp] theorem setCtx_prstInput (i : Master) (x : Context) (j : Master) :
    (s.setCtx i x).prstInput j = s.prstInput j := rfl
@[simp] theorem setCtx_iackInput (i : Master) (x : Context) (j : Master) :
    (s.setCtx i x).iackInput j = s.iackInput j := rfl
@[simp] theorem setOffer_reqLine (i : Master) (x : Option Offer) (j : Line) :
    (s.setOffer i x).reqLine j = s.reqLine j := rfl
@[simp] theorem setOffer_prstInput (i : Master) (x : Option Offer) (j : Master) :
    (s.setOffer i x).prstInput j = s.prstInput j := rfl
@[simp] theorem setOffer_iackInput (i : Master) (x : Option Offer) (j : Master) :
    (s.setOffer i x).iackInput j = s.iackInput j := rfl
@[simp] theorem setQueue_reqLine (i : SignalIndex) (x : List Signal) (j : Line) :
    (s.setQueue i x).reqLine j = s.reqLine j := rfl
@[simp] theorem setQueue_prstInput (i : SignalIndex) (x : List Signal) (j : Master) :
    (s.setQueue i x).prstInput j = s.prstInput j := rfl
@[simp] theorem setQueue_iackInput (i : SignalIndex) (x : List Signal) (j : Master) :
    (s.setQueue i x).iackInput j = s.iackInput j := rfl
@[simp] theorem setPort_reqLine (i : Master) (x : Port) (j : Line) : (s.setPort i x).reqLine j = s.reqLine j := rfl
@[simp] theorem setPort_prstInput (i : Master) (x : Port) (j : Master) :
    (s.setPort i x).prstInput j = s.prstInput j := rfl
@[simp] theorem setPort_iackInput (i : Master) (x : Port) (j : Master) :
    (s.setPort i x).iackInput j = s.iackInput j := rfl
@[simp] theorem setSettings_reqLine (x : Settings) (j : Line) : (s.setSettings x).reqLine j = s.reqLine j := rfl
@[simp] theorem setSettings_prstInput (x : Settings) (j : Master) : (s.setSettings x).prstInput j = s.prstInput j := rfl
@[simp] theorem setSettings_iackInput (x : Settings) (j : Master) : (s.setSettings x).iackInput j = s.iackInput j := rfl
@[simp] theorem withPending_reqLine (x : List Instr) (j : Line) : (s.withPending x).reqLine j = s.reqLine j := rfl
@[simp] theorem withPending_prstInput (x : List Instr) (j : Master) :
    (s.withPending x).prstInput j = s.prstInput j := rfl
@[simp] theorem withPending_iackInput (x : List Instr) (j : Master) :
    (s.withPending x).iackInput j = s.iackInput j := rfl
@[simp] theorem setInputs_reqLine (x : Inputs) (j : Line) : (s.setInputs x).reqLine j = x.req[j.val] := rfl
@[simp] theorem setInputs_prstInput (x : Inputs) (j : Master) : (s.setInputs x).prstInput j = x.prst[j.val] := rfl
@[simp] theorem setInputs_iackInput (x : Inputs) (j : Master) : (s.setInputs x).iackInput j = x.iack[j.val] := rfl

/-! Two states are equal when their records and fields are. -/

theorem eq_of_records {s t : State} (hh : s.hubHeld = t.hubHeld) (hi : s.inputs = t.inputs)
    (htr : ∀ i, s.tracker i = t.tracker i) (hr : ∀ i, s.route i = t.route i) (hc : ∀ m, s.ctx m = t.ctx m)
    (ho : ∀ m, s.offer m = t.offer m) (hp : s.period = t.period) (ht : s.tick = t.tick)
    (hs : s.settings = t.settings) (hq : ∀ g, s.queue g = t.queue g) (hpo : ∀ p, s.port p = t.port p)
    (hpe : s.pending = t.pending) : s = t := by
  apply State.ext hh hi _ _ _ _ hp ht hs _ _ hpe
  · exact Vector.ext fun i h => htr ⟨i, h⟩
  · exact Vector.ext fun i h => hr ⟨i, h⟩
  · exact Vector.ext fun i h => hc ⟨i, h⟩
  · exact Vector.ext fun i h => ho ⟨i, h⟩
  · exact Vector.ext fun i h => hq ⟨i, h⟩
  · exact Vector.ext fun i h => hpo ⟨i, h⟩

/-! The `upd` forms are the `set` forms. -/

@[simp] theorem updTracker_eq (i : Source) (f : Tracker → Tracker) : s.updTracker i f = s.setTracker i (f (s.tracker i)) := rfl
@[simp] theorem updRoute_eq (i : Source) (f : Route → Route) : s.updRoute i f = s.setRoute i (f (s.route i)) := rfl
@[simp] theorem updCtx_eq (i : Master) (f : Context → Context) : s.updCtx i f = s.setCtx i (f (s.ctx i)) := rfl
@[simp] theorem updPort_eq (i : Master) (f : Port → Port) : s.updPort i f = s.setPort i (f (s.port i)) := rfl

/-! Sets of flags. -/

@[simp] theorem setHas_setAdd {n : Nat} (x : BitVec n) (i j : Fin n) :
    setHas (setAdd x i) j = (setHas x j || decide (i = j)) := by
  simp [setHas, setAdd, Fin.ext_iff, eq_comm]

@[simp] theorem setHas_setRemove {n : Nat} (x : BitVec n) (i j : Fin n) :
    setHas (setRemove x i) j = (setHas x j && !decide (i = j)) := by
  simp [setHas, setRemove, Fin.ext_iff, eq_comm]

@[simp] theorem setHas_zero {n : Nat} (i : Fin n) : setHas (0 : BitVec n) i = false := by simp [setHas]

theorem mem_masters (m : Master) : m ∈ masters := by revert m; decide

theorem mem_sources (src : Source) : src ∈ sources := by revert src; decide

theorem mem_urgencies (u : Urgency) : u ∈ urgencies := by revert u; decide

theorem mem_codes (c : Code) : c ∈ codes := by cases c <;> decide

/-- The code table of R165 reads back: a command's code value selects that command. -/
theorem codeOf_codeByte (c : Code) : codeOf (codeByte c) = some c := by cases c <;> decide

@[simp] theorem signalIndex_signalSource (g : SignalIndex) : signalIndex (signalSource g) = some g := by
  revert g; decide

@[simp] theorem isLineSource_signalSource (g : SignalIndex) : isLineSource (signalSource g) = false := by
  revert g; decide

@[simp] theorem isLineSource_lineSource (n : Line) : isLineSource (lineSource n) = true := by
  revert n; decide

@[simp] theorem signalIndex_lineSource (n : Line) : signalIndex (lineSource n) = none := by
  revert n; decide

theorem signalIndex_eq_some {src : Source} {g : SignalIndex} : signalIndex src = some g ↔ src = signalSource g := by
  revert src g; decide

theorem signalIndex_eq_none {src : Source} : signalIndex src = none ↔ isLineSource src = true := by
  revert src; decide

end Sys2Proof.Machine
end

