-- ==== Sys2Proof/Laws/Dispatcher.lean ====
section
/-! SUPPORT. What the dispatcher's operations can do: the records they leave alone (R68), and that they neither
read nor write the ports, the signal queues, the inputs and the queue of waiting commands. -/

namespace Sys2Proof.Machine

/-- `t` differs from `s` in offer records and in the state, holder and pass set of trackers alone (R68, R75). -/
structure PassFrame (s t : State) : Prop where
  hubHeld  : t.hubHeld = s.hubHeld
  inputs   : t.inputs = s.inputs
  routes   : t.routes = s.routes
  contexts : t.contexts = s.contexts
  period   : t.period = s.period
  tick     : t.tick = s.tick
  settings : t.settings = s.settings
  queues   : t.queues = s.queues
  ports    : t.ports = s.ports
  pending  : t.pending = s.pending
  merged   : ∀ src, (t.tracker src).merged = (s.tracker src).merged
  again    : ∀ src, (t.tracker src).again = (s.tracker src).again
  line     : ∀ src, (t.tracker src).line = (s.tracker src).line

theorem PassFrame.rfl (s : State) : PassFrame s s := by constructor <;> intros <;> trivial

theorem PassFrame.trans {s t u : State} (h : PassFrame s t) (k : PassFrame t u) : PassFrame s u := by
  constructor
  all_goals first
    | exact fun src => (k.merged src).trans (h.merged src)
    | exact fun src => (k.again src).trans (h.again src)
    | exact fun src => (k.line src).trans (h.line src)
    | simp only [k.hubHeld, k.inputs, k.routes, k.contexts, k.period, k.tick, k.settings, k.queues, k.ports,
        k.pending, h.hubHeld, h.inputs, h.routes, h.contexts, h.period, h.tick, h.settings, h.queues, h.ports,
        h.pending]

/-- An update of one tracker that keeps its flags and line, beside an update of one offer record. -/
theorem passFrame_setTracker (s : State) (src : Source) (t : Tracker) (hm : t.merged = (s.tracker src).merged)
    (ha : t.again = (s.tracker src).again) (hl : t.line = (s.tracker src).line) :
    PassFrame s (s.setTracker src t) := by
  constructor
  all_goals first
    | rfl
    | (intro j; rw [setTracker_tracker]; split <;> simp_all)

theorem passFrame_updTracker (s : State) (src : Source) (f : Tracker → Tracker)
    (hf : ∀ t : Tracker, (f t).merged = t.merged ∧ (f t).again = t.again ∧ (f t).line = t.line) :
    PassFrame s (s.updTracker src f) :=
  passFrame_setTracker s src _ (hf _).1 (hf _).2.1 (hf _).2.2

theorem passFrame_setOffer (s : State) (m : Master) (o : Option Offer) : PassFrame s (s.setOffer m o) := by
  constructor <;> intros <;> rfl

theorem withdraw_frame (m : Master) (s : State) : PassFrame s (withdraw m s) := by
  unfold withdraw
  split
  · exact (passFrame_updTracker s _ Tracker.toPending fun _ => ⟨rfl, rfl, rfl⟩).trans (passFrame_setOffer _ _ _)
  · exact .rfl s

theorem withdrawSource_frame (src : Source) (s : State) : PassFrame s (withdrawSource src s) := by
  unfold withdrawSource
  split
  · exact (passFrame_updTracker s _ Tracker.toPending fun _ => ⟨rfl, rfl, rfl⟩).trans (passFrame_setOffer _ _ _)
  · exact .rfl s

theorem makeOffer_frame (src : Source) (m : Master) (s : State) : PassFrame s (makeOffer src m s) :=
  (passFrame_updTracker s src (fun t => t.toOffered m) fun _ => ⟨rfl, rfl, rfl⟩).trans (passFrame_setOffer _ _ _)

theorem clearPassSet_frame (src : Source) (s : State) : PassFrame s (clearPassSet src s) := by
  unfold clearPassSet
  split
  · exact passFrame_setTracker _ _ _ rfl rfl rfl
  · exact .rfl s

theorem placeOffer_frame (src : Source) (l : List Master) (s : State) : PassFrame s (placeOffer src l s) := by
  induction l with
  | nil => exact .rfl s
  | cons m rest ih =>
    unfold placeOffer
    split
    · exact makeOffer_frame src m s
    · split
      · exact (withdraw_frame m s).trans (makeOffer_frame src m _)
      · exact ih

theorem consider_frame (s : State) (src : Source) : PassFrame s (consider s src) := by
  unfold consider
  split
  · exact (clearPassSet_frame src s).trans (placeOffer_frame src _ _)
  · exact .rfl s

/-- A left fold of operations that each keep the frame keeps it. -/
theorem foldl_frame {α : Type} (f : State → α → State) (hf : ∀ s a, PassFrame s (f s a)) (l : List α) (s : State) :
    PassFrame s (l.foldl f s) := by
  induction l generalizing s with
  | nil => exact .rfl s
  | cons a rest ih => exact (hf s a).trans (ih _)

theorem withdrawIneligible_frame (s : State) : PassFrame s (withdrawIneligible s) :=
  foldl_frame _ (fun s m => by
    split
    · exact withdraw_frame m s
    · exact .rfl s) masters s

/-- What a dispatch pass leaves alone (R68). -/
theorem dispatchPass_frame (s : State) : PassFrame s (dispatchPass s) :=
  (withdrawIneligible_frame s).trans (foldl_frame consider consider_frame _ _)

@[simp] theorem dispatchPass_hubHeld (s : State) : (dispatchPass s).hubHeld = s.hubHeld := (dispatchPass_frame s).hubHeld
@[simp] theorem dispatchPass_inputs (s : State) : (dispatchPass s).inputs = s.inputs := (dispatchPass_frame s).inputs
@[simp] theorem dispatchPass_period (s : State) : (dispatchPass s).period = s.period := (dispatchPass_frame s).period
@[simp] theorem dispatchPass_tick (s : State) : (dispatchPass s).tick = s.tick := (dispatchPass_frame s).tick
@[simp] theorem dispatchPass_settings (s : State) : (dispatchPass s).settings = s.settings :=
  (dispatchPass_frame s).settings
@[simp] theorem dispatchPass_pending (s : State) : (dispatchPass s).pending = s.pending := (dispatchPass_frame s).pending
@[simp] theorem dispatchPass_route (s : State) (src : Source) : (dispatchPass s).route src = s.route src := by
  simp only [State.route, (dispatchPass_frame s).routes]
@[simp] theorem dispatchPass_ctx (s : State) (m : Master) : (dispatchPass s).ctx m = s.ctx m := by
  simp only [State.ctx, (dispatchPass_frame s).contexts]
@[simp] theorem dispatchPass_queue (s : State) (g : SignalIndex) : (dispatchPass s).queue g = s.queue g := by
  simp only [State.queue, (dispatchPass_frame s).queues]
@[simp] theorem dispatchPass_port (s : State) (p : Master) : (dispatchPass s).port p = s.port p := by
  simp only [State.port, (dispatchPass_frame s).ports]

/-- An update `h` that no dispatcher operation reads or overwrites. -/
structure Outside (h : State → State) : Prop where
  tracker    : ∀ s i, (h s).tracker i = s.tracker i
  route      : ∀ s i, (h s).route i = s.route i
  ctx        : ∀ s m, (h s).ctx m = s.ctx m
  offer      : ∀ s m, (h s).offer m = s.offer m
  tick       : ∀ s, (h s).tick = s.tick
  settings   : ∀ s, (h s).settings = s.settings
  setTracker : ∀ s i t, h (s.setTracker i t) = (h s).setTracker i t
  setOffer   : ∀ s m o, h (s.setOffer m o) = (h s).setOffer m o

theorem outside_setPort (p : Master) (q : Port) : Outside (fun s => s.setPort p q) := by
  constructor <;> intros <;> rfl

theorem outside_setQueue (g : SignalIndex) (q : List Signal) : Outside (fun s => s.setQueue g q) := by
  constructor <;> intros <;> rfl

theorem outside_setInputs (i : Inputs) : Outside (fun s => s.setInputs i) := by
  constructor <;> intros <;> rfl

theorem outside_withPending (q : List Instr) : Outside (fun s => s.withPending q) := by
  constructor <;> intros <;> rfl

section
variable {h : State → State} (ho : Outside h)
include ho

theorem Outside.withdraw (m : Master) (s : State) : withdraw m (h s) = h (Machine.withdraw m s) := by
  unfold Machine.withdraw
  rw [ho.offer]
  split <;> simp only [State.updTracker, ho.tracker, ho.setTracker, ho.setOffer]

theorem Outside.withdrawSource (src : Source) (s : State) :
    withdrawSource src (h s) = h (Machine.withdrawSource src s) := by
  unfold Machine.withdrawSource
  rw [ho.tracker]
  split <;> simp only [State.updTracker, ho.tracker, ho.setTracker, ho.setOffer]

theorem Outside.eligible (s : State) (src : Source) (m : Master) :
    eligible (h s) src m = Machine.eligible s src m := by
  simp only [Machine.eligible, eligibleToPoll, State.online, ho.tracker, ho.route, ho.ctx]

theorem Outside.offerable (s : State) (src : Source) : offerable (h s) src = Machine.offerable s src := by
  simp only [Machine.offerable, ho.tracker, ho.route]

theorem Outside.preference (s : State) (src : Source) : preference (h s) src = Machine.preference s src := by
  simp only [Machine.preference, policyOrder, ho.route, ho.ctx]
  congr 1
  funext m
  exact ho.eligible s src m

theorem Outside.clearPassSet (src : Source) (s : State) :
    clearPassSet src (h s) = h (Machine.clearPassSet src s) := by
  have hc : passSetCovers (h s) src = passSetCovers s src := by
    simp only [passSetCovers, State.online, ho.tracker, ho.route, ho.ctx]
  unfold Machine.clearPassSet
  rw [hc]
  split <;> simp only [State.updTracker, ho.tracker, ho.setTracker]

theorem Outside.makeOffer (src : Source) (m : Master) (s : State) :
    makeOffer src m (h s) = h (Machine.makeOffer src m s) := by
  simp only [Machine.makeOffer, newExpires, State.updTracker, ho.tracker, ho.tick, ho.settings, ho.setTracker,
    ho.setOffer]

theorem Outside.placeOffer (src : Source) (l : List Master) (s : State) :
    placeOffer src l (h s) = h (Machine.placeOffer src l s) := by
  induction l with
  | nil => rfl
  | cons m rest ih =>
    simp only [Machine.placeOffer, ho.offer, ho.route]
    split
    · exact ho.makeOffer src m s
    · split
      · rw [ho.withdraw, ho.makeOffer]
      · exact ih

theorem Outside.consider (s : State) (src : Source) : consider (h s) src = h (Machine.consider s src) := by
  simp only [Machine.consider, ho.offerable, ho.clearPassSet, ho.preference, ho.placeOffer]
  split <;> rfl

omit ho in
theorem Outside.foldl {α : Type} (f : State → α → State) (hf : ∀ s a, f (h s) a = h (f s a)) (l : List α)
    (s : State) : l.foldl f (h s) = h (l.foldl f s) := by
  induction l generalizing s with
  | nil => rfl
  | cons a rest ih => simp only [List.foldl_cons, hf, ih]

theorem Outside.withdrawIneligible (s : State) : withdrawIneligible (h s) = h (Machine.withdrawIneligible s) := by
  refine Outside.foldl _ (fun s m => ?_) masters s
  have hf : offerFails (h s) m = offerFails s m := by
    simp only [offerFails, ho.offer, ho.route, ho.eligible]
  rw [hf]
  split
  · exact ho.withdraw m s
  · rfl

/-- A pass and an update outside the dispatcher's records may be taken in either order. -/
theorem Outside.dispatchPass (s : State) : dispatchPass (h s) = h (Machine.dispatchPass s) := by
  have hp : ∀ u, passOrder (h u) = passOrder u := fun u => by simp only [passOrder, ho.route]
  simp only [Machine.dispatchPass, ho.withdrawIneligible, hp]
  exact Outside.foldl _ ho.consider _ _

end

theorem dispatchPass_setPort (s : State) (p : Master) (q : Port) :
    dispatchPass (s.setPort p q) = (dispatchPass s).setPort p q := (outside_setPort p q).dispatchPass s

theorem dispatchPass_setQueue (s : State) (g : SignalIndex) (q : List Signal) :
    dispatchPass (s.setQueue g q) = (dispatchPass s).setQueue g q := (outside_setQueue g q).dispatchPass s

theorem dispatchPass_setInputs (s : State) (i : Inputs) :
    dispatchPass (s.setInputs i) = (dispatchPass s).setInputs i := (outside_setInputs i).dispatchPass s

theorem dispatchPass_withPending (s : State) (q : List Instr) :
    dispatchPass (s.withPending q) = (dispatchPass s).withPending q := (outside_withPending q).dispatchPass s

end Sys2Proof.Machine
end

