-- ==== Sys2Proof/Laws/Ops.lean ====
section
/-! SUPPORT. What the shared operations of Machine/Ops.lean can do: the records each leaves alone, and the value of
each record it writes. -/

namespace Sys2Proof.Machine

open Sys2Proof.Safety (noticedPort passedRoute)

/-- All of `queueNotice`: the port of a present recipient is noticed, and nothing else changes. -/
theorem queueNotice_eq (m : Master) (n : Notice) (s : State) :
    queueNotice m n s = if s.present m then s.setPort m (noticedPort n (s.port m)) else s := by
  unfold queueNotice noticedPort
  simp only [Config.noticeDepth, updPort_eq]
  by_cases hp : s.present m = true
  · by_cases hn : (s.port m).notices.length < 8 <;> simp [hp, hn]
  · simp [hp]

section
variable (m : Master) (n : Notice) (s : State)

theorem queueNotice_port (k : Master) :
    (queueNotice m n s).port k = if m = k ∧ s.present m = true then noticedPort n (s.port m) else s.port k := by
  rw [queueNotice_eq]
  by_cases hk : m = k
  · subst hk
    by_cases hp : s.present m = true <;> simp [hp]
  · by_cases hp : s.present m = true <;> simp [hp, hk]

@[simp] theorem queueNotice_hubHeld : (queueNotice m n s).hubHeld = s.hubHeld := by rw [queueNotice_eq]; split <;> rfl
@[simp] theorem queueNotice_inputs : (queueNotice m n s).inputs = s.inputs := by rw [queueNotice_eq]; split <;> rfl
@[simp] theorem queueNotice_trackers : (queueNotice m n s).trackers = s.trackers := by
  rw [queueNotice_eq]; split <;> rfl
@[simp] theorem queueNotice_routes : (queueNotice m n s).routes = s.routes := by rw [queueNotice_eq]; split <;> rfl
@[simp] theorem queueNotice_contexts : (queueNotice m n s).contexts = s.contexts := by
  rw [queueNotice_eq]; split <;> rfl
@[simp] theorem queueNotice_offers : (queueNotice m n s).offers = s.offers := by rw [queueNotice_eq]; split <;> rfl
@[simp] theorem queueNotice_period : (queueNotice m n s).period = s.period := by rw [queueNotice_eq]; split <;> rfl
@[simp] theorem queueNotice_tick : (queueNotice m n s).tick = s.tick := by rw [queueNotice_eq]; split <;> rfl
@[simp] theorem queueNotice_settings : (queueNotice m n s).settings = s.settings := by
  rw [queueNotice_eq]; split <;> rfl
@[simp] theorem queueNotice_queues : (queueNotice m n s).queues = s.queues := by rw [queueNotice_eq]; split <;> rfl
@[simp] theorem queueNotice_pending : (queueNotice m n s).pending = s.pending := by rw [queueNotice_eq]; split <;> rfl
@[simp] theorem queueNotice_tracker (i : Source) : (queueNotice m n s).tracker i = s.tracker i := by
  simp only [State.tracker, queueNotice_trackers]
@[simp] theorem queueNotice_route (i : Source) : (queueNotice m n s).route i = s.route i := by
  simp only [State.route, queueNotice_routes]
@[simp] theorem queueNotice_ctx (k : Master) : (queueNotice m n s).ctx k = s.ctx k := by
  simp only [State.ctx, queueNotice_contexts]
@[simp] theorem queueNotice_offer (k : Master) : (queueNotice m n s).offer k = s.offer k := by
  simp only [State.offer, queueNotice_offers]
@[simp] theorem queueNotice_queue (g : SignalIndex) : (queueNotice m n s).queue g = s.queue g := by
  simp only [State.queue, queueNotice_queues]

end

/-- `t` differs from `s` in notices and overflow flags alone. -/
structure NoticeFrame (s t : State) : Prop where
  hubHeld  : t.hubHeld = s.hubHeld
  inputs   : t.inputs = s.inputs
  trackers : t.trackers = s.trackers
  routes   : t.routes = s.routes
  contexts : t.contexts = s.contexts
  offers   : t.offers = s.offers
  period   : t.period = s.period
  tick     : t.tick = s.tick
  settings : t.settings = s.settings
  queues   : t.queues = s.queues
  pending  : t.pending = s.pending

theorem queueNotice_frame (m : Master) (n : Notice) (s : State) : NoticeFrame s (queueNotice m n s) := by
  constructor <;> simp

theorem NoticeFrame.trans {s t u : State} (h : NoticeFrame s t) (k : NoticeFrame t u) : NoticeFrame s u := by
  constructor <;>
    simp only [k.hubHeld, k.inputs, k.trackers, k.routes, k.contexts, k.offers, k.period, k.tick, k.settings,
      k.queues, k.pending, h.hubHeld, h.inputs, h.trackers, h.routes, h.contexts, h.offers, h.period, h.tick,
      h.settings, h.queues, h.pending]

theorem notifyOthers_frame (m : Master) (n : Notice) (s : State) : NoticeFrame s (notifyOthers m n s) := by
  suffices h : ∀ (l : List Master) (u : State), NoticeFrame s u →
      NoticeFrame s (l.foldl (fun s k => if k = m then s else queueNotice k n s) u) from
    h masters s (by constructor <;> rfl)
  intro l
  induction l with
  | nil => exact fun u hu => hu
  | cons k rest ih =>
    intro u hu
    refine ih _ ?_
    by_cases hk : k = m
    · simpa [hk] using hu
    · simpa [hk] using hu.trans (queueNotice_frame k n u)

@[simp] theorem notifyOthers_ctx (m : Master) (n : Notice) (s : State) (k : Master) :
    (notifyOthers m n s).ctx k = s.ctx k := by
  simp only [State.ctx, (notifyOthers_frame m n s).contexts]

@[simp] theorem notifyOthers_route (m : Master) (n : Notice) (s : State) (i : Source) :
    (notifyOthers m n s).route i = s.route i := by
  simp only [State.route, (notifyOthers_frame m n s).routes]

@[simp] theorem notifyOthers_tracker (m : Master) (n : Notice) (s : State) (i : Source) :
    (notifyOthers m n s).tracker i = s.tracker i := by
  simp only [State.tracker, (notifyOthers_frame m n s).trackers]

@[simp] theorem notifyOthers_offer (m : Master) (n : Notice) (s : State) (k : Master) :
    (notifyOthers m n s).offer k = s.offer k := by
  simp only [State.offer, (notifyOthers_frame m n s).offers]

@[simp] theorem notifyOthers_queue (m : Master) (n : Notice) (s : State) (g : SignalIndex) :
    (notifyOthers m n s).queue g = s.queue g := by
  simp only [State.queue, (notifyOthers_frame m n s).queues]

@[simp] theorem queueNotice_present (m : Master) (n : Notice) (s : State) (k : Master) :
    (queueNotice m n s).present k = s.present k := by
  simp only [State.present, queueNotice_ctx]

/-- All of `notifyOthers` at a port: every other present master is noticed once (R52). -/
theorem notifyOthers_port (m : Master) (n : Notice) (s : State) (k : Master) :
    (notifyOthers m n s).port k = if k ≠ m ∧ s.present k = true then noticedPort n (s.port k) else s.port k := by
  suffices h : ∀ (l : List Master) (u : State), l.Nodup → (∀ j, u.present j = s.present j) →
      (l.foldl (fun s k => if k = m then s else queueNotice k n s) u).port k =
        if k ∈ l ∧ k ≠ m ∧ s.present k = true then noticedPort n (u.port k) else u.port k by
    have := h masters s (by decide) (fun _ => rfl)
    simpa [notifyOthers, mem_masters k] using this
  intro l
  induction l with
  | nil => intro u _ _; simp
  | cons j rest ih =>
    intro u hn hu
    rw [List.nodup_cons] at hn
    rw [List.foldl_cons]
    by_cases hj : j = m
    · rw [if_pos hj, ih u hn.2 hu]
      by_cases hk : k = m
      · simp [hk]
      · have : k ≠ j := fun e => hk (e.trans hj)
        simp [hk, this]
    · rw [if_neg hj, ih _ hn.2 (fun i => by simp [hu]), queueNotice_port]
      by_cases hk : j = k
      · subst hk
        simp [hn.1, hj, hu j]
      · simp [hk, Ne.symm hk]

/-- `t` differs from `s` in routes, notices and overflow flags alone. -/
structure PassageFrame (s t : State) : Prop where
  hubHeld  : t.hubHeld = s.hubHeld
  inputs   : t.inputs = s.inputs
  trackers : t.trackers = s.trackers
  contexts : t.contexts = s.contexts
  offers   : t.offers = s.offers
  period   : t.period = s.period
  tick     : t.tick = s.tick
  settings : t.settings = s.settings
  queues   : t.queues = s.queues
  pending  : t.pending = s.pending

theorem PassageFrame.trans {s t u : State} (h : PassageFrame s t) (k : PassageFrame t u) : PassageFrame s u := by
  constructor <;>
    simp only [k.hubHeld, k.inputs, k.trackers, k.contexts, k.offers, k.period, k.tick, k.settings, k.queues,
      k.pending, h.hubHeld, h.inputs, h.trackers, h.contexts, h.offers, h.period, h.tick, h.settings, h.queues,
      h.pending]

theorem passRoute_frame (m : Master) (s : State) (src : Source) : PassageFrame s (passRoute m s src) := by
  unfold passRoute
  split
  · split
    · split
      · constructor <;> simp
      · constructor <;> rfl
    · constructor <;> rfl
  · constructor <;> rfl

theorem bindingPassage_frame (m : Master) (s : State) : PassageFrame s (bindingPassage m s) := by
  suffices h : ∀ (l : List Source) (u : State), PassageFrame s u → PassageFrame s (l.foldl (passRoute m) u) from
    h sources s (by constructor <;> rfl)
  intro l
  induction l with
  | nil => exact fun u hu => hu
  | cons a rest ih => exact fun u hu => ih _ (hu.trans (passRoute_frame m u a))

theorem passRoute_route (m : Master) (s : State) (src j : Source) :
    (passRoute m s src).route j = if src = j then passedRoute m s.online (s.route src) else s.route j := by
  unfold passRoute passedRoute
  by_cases hb : (s.route src).binder = some m
  · simp only [hb, if_true]
    cases hh : (s.route src).heir with
    | none =>
      by_cases hj : src = j
      · subst hj; simp [← hh]
      · simp [hj]
    | some k =>
      by_cases ho : s.online k = true <;> by_cases hj : src = j
      · subst hj; simp [ho]
      · simp [ho, hj]
      · subst hj; simp [ho]
      · simp [ho, hj]
  · simp only [hb, if_false]
    by_cases hj : src = j
    · subst hj; simp
    · simp [hj]

/-- All of `bindingPassage` at a route (R23). -/
theorem bindingPassage_route (m : Master) (s : State) (j : Source) :
    (bindingPassage m s).route j = passedRoute m s.online (s.route j) := by
  suffices h : ∀ (l : List Source) (u : State), l.Nodup → (∀ k, u.online k = s.online k) →
      (l.foldl (passRoute m) u).route j = if j ∈ l then passedRoute m s.online (u.route j) else u.route j by
    have := h sources s (by decide) (fun _ => rfl)
    simpa [bindingPassage, mem_sources j] using this
  intro l
  induction l with
  | nil => intro u _ _; simp
  | cons a rest ih =>
    intro u hn hu
    rw [List.nodup_cons] at hn
    have ho : u.online = s.online := funext hu
    rw [List.foldl_cons, ih _ hn.2 (fun k => by
      simp only [State.online, State.ctx, (passRoute_frame m u a).contexts]; exact hu k), passRoute_route, ho]
    by_cases hj : a = j
    · subst hj; simp [hn.1]
    · simp [hj, Ne.symm hj]

@[simp] theorem bindingPassage_ctx (m : Master) (s : State) (k : Master) :
    (bindingPassage m s).ctx k = s.ctx k := by
  simp only [State.ctx, (bindingPassage_frame m s).contexts]

@[simp] theorem bindingPassage_tracker (m : Master) (s : State) (i : Source) :
    (bindingPassage m s).tracker i = s.tracker i := by
  simp only [State.tracker, (bindingPassage_frame m s).trackers]

@[simp] theorem bindingPassage_offer (m : Master) (s : State) (k : Master) :
    (bindingPassage m s).offer k = s.offer k := by
  simp only [State.offer, (bindingPassage_frame m s).offers]

@[simp] theorem bindingPassage_queue (m : Master) (s : State) (g : SignalIndex) :
    (bindingPassage m s).queue g = s.queue g := by
  simp only [State.queue, (bindingPassage_frame m s).queues]

/-- The sources whose routes binding passage of `m` hands to `h`, in ascending number (R23, R24). -/
def inheritedBy (m h : Master) (s : State) : List Source :=
  sources.filter (fun src =>
    ((s.route src).binder == some m) && ((s.route src).heir == some h) && s.online h)

theorem passRoute_port (m : Master) (s : State) (src : Source) (h : Master) :
    (passRoute m s src).port h =
      if (s.route src).binder = some m ∧ (s.route src).heir = some h ∧ s.online h = true then
        noticedPort (.inherited src) (s.port h) else s.port h := by
  unfold passRoute
  by_cases hb : (s.route src).binder = some m
  · simp only [hb, if_true]
    cases hh : (s.route src).heir with
    | none => simp
    | some k =>
      by_cases ho : s.online k = true
      · have hp : s.present k = true := by
          simp only [State.online, beq_iff_eq] at ho
          simp [State.present, ho]
        simp only [ho, if_true]
        rw [queueNotice_port]
        have hp' : (s.updRoute src (fun r => { r with binder := some k, heir := none })).present k = true := hp
        by_cases hk : k = h
        · subst hk; rw [hp']; simp [ho]
        · simp [hk]
      · by_cases hk : k = h
        · subst hk; simp [ho]
        · simp [ho, hk]
  · simp [hb]

/-- All of `bindingPassage` at a port: one INHERITED notice for each route handed to its master, in ascending
source number (R24). -/
theorem bindingPassage_port (m h : Master) (s : State) :
    (bindingPassage m s).port h =
      (inheritedBy m h s).foldl (fun q src => noticedPort (.inherited src) q) (s.port h) := by
  suffices hl : ∀ (l : List Source) (u : State), l.Nodup → (∀ k, u.online k = s.online k) →
      (∀ j ∈ l, u.route j = s.route j) →
      (l.foldl (passRoute m) u).port h =
        (l.filter (fun src =>
          ((s.route src).binder == some m) && ((s.route src).heir == some h) && s.online h)).foldl
          (fun q src => noticedPort (.inherited src) q) (u.port h) from
    hl sources s (by decide) (fun _ => rfl) (fun _ _ => rfl)
  intro l
  induction l with
  | nil => intro u _ _ _; simp
  | cons a rest ih =>
    intro u hn hu hr
    rw [List.nodup_cons] at hn
    rw [List.foldl_cons, ih _ hn.2 (fun k => by
        simp only [State.online, State.ctx, (passRoute_frame m u a).contexts]; exact hu k)
      (fun j hj => by
        have hne : a ≠ j := fun e => hn.1 (e ▸ hj)
        rw [passRoute_route, if_neg hne]
        exact hr j (List.mem_cons_of_mem _ hj)), passRoute_port, hr a List.mem_cons_self, hu h]
    by_cases hc : (s.route a).binder = some m ∧ (s.route a).heir = some h ∧ s.online h = true
    · rw [if_pos hc, List.filter_cons_of_pos (by simp [hc.1, hc.2.1, hc.2.2]), List.foldl_cons]
    · rw [if_neg hc, List.filter_cons_of_neg (by simpa [and_assoc] using hc)]

/-- `endLeaving` at the leaving master's context (R43, steps 1, 4, 5). -/
theorem endLeaving_ctx_self (m : Master) (s : State) :
    (endLeaving m s).ctx m = { s.ctx m with portState := .offline, reclaimed := [], missCount := 0 } := by
  simp [endLeaving, clearNotices, setPortState]

/-- `endLeaving` reaches no other context. -/
theorem endLeaving_ctx_ne (m k : Master) (s : State) (h : m ≠ k) : (endLeaving m s).ctx k = s.ctx k := by
  simp [endLeaving, clearNotices, setPortState, h]

@[simp] theorem endLeaving_tracker (m : Master) (s : State) (i : Source) :
    (endLeaving m s).tracker i = s.tracker i := by simp [endLeaving, clearNotices, setPortState]

@[simp] theorem endLeaving_offer (m : Master) (s : State) (k : Master) :
    (endLeaving m s).offer k = s.offer k := by simp [endLeaving, clearNotices, setPortState]

@[simp] theorem endLeaving_queue (m : Master) (s : State) (g : SignalIndex) :
    (endLeaving m s).queue g = s.queue g := by simp [endLeaving, clearNotices, setPortState]

/-- `endLeaving` at a route is the passage judged with the leaving master OFFLINE (R43, step 2). -/
theorem endLeaving_route (m : Master) (s : State) (j : Source) :
    (endLeaving m s).route j = passedRoute m (setPortState m .offline s).online (s.route j) := by
  simp only [endLeaving, clearNotices, updCtx_eq, updPort_eq, notifyOthers_route, setCtx_route, setPort_route,
    bindingPassage_route]
  rfl

/-- The tracker of `src` after a rest by completion (R14). -/
theorem restCompleted_tracker_self (src : Source) (s : State) :
    (restCompleted src s).tracker src =
      match signalIndex src with
      | some g => (s.tracker src).completeSignal (s.queue g).tail
      | none => (s.tracker src).completeLine (s.route src).trigger := by
  unfold restCompleted
  cases h : signalIndex src <;> simp

theorem restCompleted_tracker_ne (src j : Source) (s : State) (h : src ≠ j) :
    (restCompleted src s).tracker j = s.tracker j := by
  unfold restCompleted
  cases signalIndex src <;> simp [h]

/-- The queues after a rest by completion: the head of the source's own queue is gone (R14, R136). -/
theorem restCompleted_queue (src : Source) (s : State) (g : SignalIndex) :
    (restCompleted src s).queue g = if signalIndex src = some g then (s.queue g).tail else s.queue g := by
  unfold restCompleted
  cases h : signalIndex src with
  | none => simp
  | some k =>
    by_cases hk : k = g
    · subst hk; simp
    · simp [hk]

@[simp] theorem restCompleted_ctx (src : Source) (s : State) (m : Master) :
    (restCompleted src s).ctx m = s.ctx m := by unfold restCompleted; cases signalIndex src <;> rfl

@[simp] theorem restCompleted_route (src j : Source) (s : State) :
    (restCompleted src s).route j = s.route j := by unfold restCompleted; cases signalIndex src <;> rfl

@[simp] theorem restCompleted_offer (src : Source) (s : State) (m : Master) :
    (restCompleted src s).offer m = s.offer m := by unfold restCompleted; cases signalIndex src <;> rfl

@[simp] theorem restCompleted_port (src : Source) (s : State) (m : Master) :
    (restCompleted src s).port m = s.port m := by unfold restCompleted; cases signalIndex src <;> rfl

/-- A removed entry's source is in the stack no longer, and the others keep their order (R37). -/
theorem mem_removeEntry (src : Source) (l : List Entry) (e : Entry) :
    e ∈ removeEntry src l ↔ e ∈ l ∧ e.source ≠ src := by simp [removeEntry]

theorem removeEntry_sublist (src : Source) (l : List Entry) : (removeEntry src l).Sublist l :=
  List.filter_sublist

/-- `placeReclaimed` with its size written out. -/
theorem placeReclaimed_eq (src : Source) (l : List Source) : placeReclaimed src l = Safety.placedNewest src l := rfl

/-- A reclaimed list never grows past its size (R119). -/
theorem placeReclaimed_length (src : Source) (l : List Source) (h : l.length ≤ 8) :
    (placeReclaimed src l).length ≤ 8 := by
  unfold placeReclaimed
  split
  · simp_all [Config.reclaimedDepth]
  · simp_all [Config.reclaimedDepth]; omega

/-- `noteTake` at the trackers (R94, step 1). -/
theorem noteTake_tracker (m : Master) (src j : Source) (s : State) :
    (noteTake m src s).tracker j = if src = j then { s.tracker src with merged := false } else s.tracker j := by
  unfold noteTake
  dsimp only
  split
  · split <;> simp [setTracker_tracker]
  · simp [setTracker_tracker]

/-- `noteTake` at the routes (R94, step 2). -/
theorem noteTake_route (m : Master) (src j : Source) (s : State) :
    (noteTake m src s).route j = if src = j then { s.route src with last := m } else s.route j := by
  unfold noteTake
  dsimp only
  split
  · split <;> simp [setRoute_route]
  · simp [setRoute_route]

/-- `noteTake` at the contexts (R94, step 3). -/
theorem noteTake_ctx (m k : Master) (src : Source) (s : State) :
    (noteTake m src s).ctx k =
      if m = k then { s.ctx m with reclaimed := (s.ctx m).reclaimed.filter (· != src) } else s.ctx k := by
  unfold noteTake
  dsimp only
  split
  · split <;> simp [setCtx_ctx]
  · simp [setCtx_ctx]

/-- `noteTake` at the offer records (R94, step 4). -/
theorem noteTake_offer (m k : Master) (src : Source) (s : State) :
    (noteTake m src s).offer k =
      if m = k ∧ (s.offer m).map (·.source) = some src then none else s.offer k := by
  unfold noteTake
  simp only [updTracker_eq, updRoute_eq, updCtx_eq, setCtx_offer, setRoute_offer, setTracker_offer]
  split
  · rename_i o ho
    by_cases hk : m = k
    · subst hk
      by_cases hs : o.source = src <;> simp [ho, hs]
    · by_cases hs : o.source = src <;> simp [hs, hk]
  · rename_i ho
    simp [ho]

end Sys2Proof.Machine
end

