-- ==== Sys2Proof/Laws/Execute.lean ====
section
/-! SUPPORT. What one execution of a command word can do (R149 to R151), and the take word's frame. -/

namespace Sys2Proof.Machine

/-- `produceReply` writes the port's reply queue and overrun flag and nothing else. -/
theorem produceReply_eq (p : Master) (code : BitVec 8) (ans : Answer) :
    produceReply p code ans = ans.state.setPort p
      { ans.state.port p with
        replies := (ans.state.port p).replies
          ++ headerWord code ans.status ans.data.length (ans.state.port p).overrun ans.noticeOverflow :: ans.data
        overrun := false } := rfl

theorem popCommand_eq (p : Master) (s : State) :
    popCommand p s = s.setPort p { s.port p with commands := (s.port p).commands.tail } := rfl

/-- A head that is the command, with room for its reply and no reset to be taken first, is executed (R149). -/
theorem executeCommand_of_head {c : Code} {effect : Effect} {p : Master} {s : State} {w : Word} {rest : List Word}
    (hn : s.resetWaits = false) (hq : (s.port p).commands = w :: rest) (hc : codeField w = codeByte c)
    (hr : (s.port p).replies.length + reservedWords c ≤ 16) :
    executeCommand c effect p s =
      produceReply p (codeField w) (answerCommand c effect p w (popCommand p s)) := by
  simp [executeCommand, hn, hq, hc, hasRoom, Config.replyDepth, hr]

/-- While a recognised reset waits no word is executed: nothing changes (R49, R159). -/
theorem executeCommand_of_resetWaits {c : Code} {effect : Effect} {p : Master} {s : State}
    (hn : s.resetWaits = true) : executeCommand c effect p s = s := by
  unfold executeCommand
  split <;> simp [hn]

/-- A head that waits for room waits: nothing changes (R149, R150). -/
theorem executeCommand_of_full {c : Code} {effect : Effect} {p : Master} {s : State}
    (hr : 16 < (s.port p).replies.length + reservedWords c) : executeCommand c effect p s = s := by
  unfold executeCommand
  split
  · rfl
  · have : hasRoom s p (reservedWords c) = false :=
      decide_eq_false (by simp only [Config.replyDepth]; omega)
    simp [this]

/-- All of `executeCommand`: it executes the head, or nothing changes. -/
theorem executeCommand_cases (c : Code) (effect : Effect) (p : Master) (s : State) :
    executeCommand c effect p s = s ∨
      ∃ w rest, s.resetWaits = false ∧ (s.port p).commands = w :: rest ∧ codeField w = codeByte c ∧
        (s.port p).replies.length + reservedWords c ≤ 16 ∧
        executeCommand c effect p s =
          produceReply p (codeField w) (answerCommand c effect p w (popCommand p s)) := by
  by_cases h : canExecute c p s = true
  · right
    unfold canExecute at h
    cases hq : (s.port p).commands with
    | nil => simp [hq] at h
    | cons w rest =>
      simp only [hq, hasRoom, Config.replyDepth, Bool.and_eq_true, Bool.not_eq_true', beq_iff_eq] at h
      have hr := of_decide_eq_true h.2
      exact ⟨w, rest, h.1.1, rfl, h.1.2, hr, executeCommand_of_head h.1.1 hq h.1.2 hr⟩
  · left
    unfold canExecute at h
    unfold executeCommand
    cases hq : (s.port p).commands with
    | nil => rfl
    | cons w rest => simp_all

/-- All of `answerCommand`: BADARG, the port-state refusal, or the command's own answer (R151). -/
theorem answerCommand_cases (c : Code) (effect : Effect) (p : Master) (w : Word) (s : State) :
    (operandsOk c (operandA w) (operandB w) = false ∧ answerCommand c effect p w s = answer .badArg s) ∨
    (operandsOk c (operandA w) (operandB w) = true ∧
      ∃ st, portStateRefusal c (s.ctx p).portState = some st ∧ answerCommand c effect p w s = answer st s) ∨
    (operandsOk c (operandA w) (operandB w) = true ∧ portStateRefusal c (s.ctx p).portState = none ∧
      answerCommand c effect p w s = effect p (operandA w) (operandB w) s) := by
  unfold answerCommand
  cases ho : operandsOk c (operandA w) (operandB w)
  · exact .inl ⟨rfl, rfl⟩
  · cases hp : portStateRefusal c (s.ctx p).portState with
    | none => exact .inr (.inr ⟨rfl, rfl, rfl⟩)
    | some st => exact .inr (.inl ⟨rfl, st, rfl, rfl⟩)

/-- An ONLINE master's port-state check passes for every command (R40). -/
@[simp] theorem portStateRefusal_online (c : Code) : portStateRefusal c .online = none := rfl

/-- The execution of an accepted command whose effect is known, written as one state (R149, R151). -/
theorem executeCommand_accepted {c : Code} {effect : Effect} {p : Master} {s : State} {w : Word} {rest : List Word}
    (hn : s.resetWaits = false) (hq : (s.port p).commands = w :: rest) (hc : codeField w = codeByte c)
    (hr : (s.port p).replies.length + reservedWords c ≤ 16)
    (ho : operandsOk c (operandA w) (operandB w) = true)
    (hp : portStateRefusal c (s.ctx p).portState = none) :
    executeCommand c effect p s =
      produceReply p (codeField w) (effect p (operandA w) (operandB w) (popCommand p s)) := by
  rw [executeCommand_of_head hn hq hc hr]
  unfold answerCommand
  have hp' : portStateRefusal c ((popCommand p s).ctx p).portState = none := hp
  simp [ho, hp']

end Sys2Proof.Machine
end

