-- ==== Sys2Proof/Laws/Lines.lean ====
section
/-! SUPPORT. When a period of TREF can come, what a bus read answers, and what the release of a reset does to an
assertion of IACK that waits. -/

namespace Sys2Proof.Machine

open Sys2Proof.Safety

/-- A period can come exactly when no recognised change waits (R3). -/
theorem changeWaits_eq_false (s : State) : s.inputs.changeWaits = false ↔ NoChangeWaits s := by
  simp only [Inputs.changeWaits, NoChangeWaits, State.reqLine, State.prstInput, State.iackInput,
    Bool.or_eq_false_iff, List.any_eq_false, Vector.mem_toList_iff, Vector.mem_iff_getElem, Bool.not_eq_true]
  constructor
  · rintro ⟨⟨⟨h, r⟩, p⟩, i⟩
    exact ⟨fun n => r _ ⟨n.val, n.isLt, rfl⟩, fun n => p _ ⟨n.val, n.isLt, rfl⟩, fun n => i _ ⟨n.val, n.isLt, rfl⟩, h⟩
  · rintro ⟨r, p, i, h⟩
    refine ⟨⟨⟨h, ?_⟩, ?_⟩, ?_⟩
    · rintro _ ⟨n, hn, rfl⟩; exact r ⟨n, hn⟩
    · rintro _ ⟨n, hn, rfl⟩; exact p ⟨n, hn⟩
    · rintro _ ⟨n, hn, rfl⟩; exact i ⟨n, hn⟩

/-- No recognised reset waits: the rows that come after one can be taken (R49, R159). -/
theorem resetWaits_eq_false (s : State) : s.resetWaits = false ↔ NoResetWaits s := by
  simp only [State.resetWaits, State.hrstWaits, Sampler.waiting, NoResetWaits, HrstWaits, PortResetWaits,
    State.prstInput, Bool.or_eq_false_iff, List.any_eq_false, Vector.mem_toList_iff, Vector.mem_iff_getElem]
  constructor
  · rintro ⟨h, r⟩
    exact ⟨by simp [h], fun p w => r _ ⟨p.val, p.isLt, rfl⟩ (by simp [w])⟩
  · rintro ⟨h, r⟩
    refine ⟨by simpa using h, ?_⟩
    rintro _ ⟨p, hp, rfl⟩ w
    exact r ⟨p, hp⟩ (by simpa [and_comm] using w)

theorem hrstWaits_iff (s : State) : s.hrstWaits = true ↔ HrstWaits s := Iff.rfl

theorem windowHeld_iff (s : State) (p : Master) : windowHeld s p = true ↔ ResetHeld s p := by
  simp [windowHeld, Sampler.holds, ResetHeld]

/-- No acknowledge access can begin exactly while a reset is held or its release waits (R50, R86, R159). -/
theorem iackIgnored_iff (s : State) (p : Master) : iackIgnored s p = true ↔ ResetHeld s p ∨ ReleaseWaits s p := by
  simp [iackIgnored, windowHeld_iff, ReleaseWaits, Sampler.waiting, or_assoc, and_comm]

theorem readsOpen_iff (s : State) (p : Master) : readsOpen s p = true ↔ ReadsOpen s p := by
  simp [readsOpen, ReadsOpen, ← windowHeld_iff]

/-- INTQ is low while a reset is held (R50, R157). -/
theorem intq_of_held {s : State} {p : Master} (h : ResetHeld s p) : s.intq p = false := by
  simp [State.intq, (windowHeld_iff s p).2 h]

/-- INTQ is the offer record's presence while no reset is held (R78, R157). -/
theorem intq_of_not_held {s : State} {p : Master} (h : ¬ ResetHeld s p) : s.intq p = (s.offer p).isSome := by
  simp [State.intq, Bool.eq_false_iff.2 fun w => h ((windowHeld_iff s p).1 w)]

/-- The window answers for its offset. -/
theorem busRead_of_open {s : State} {p : Master} (h : ReadsOpen s p) (own : Word) (t : State) :
    busRead p own t s = returnRead p own t := by
  have hw : windowHeld s p = false := Bool.eq_false_iff.2 fun hw => h.1 ((windowHeld_iff s p).1 hw)
  simp [busRead, hw, h.2]

/-- A read of a port held in reset answers zero. -/
theorem busRead_of_held {s : State} {p : Master} (h : ResetHeld s p) (own : Word) (t : State) :
    busRead p own t s = returnRead p 0 s := by
  simp [busRead, (windowHeld_iff s p).2 h]

/-- All of a bus read: the answer of its offset, a word read with nothing else changed, or a wait. -/
theorem busRead_cases (p : Master) (own : Word) (t s : State) :
    busRead p own t s = returnRead p own t ∨ (∃ w, busRead p own t s = returnRead p w s) ∨ busRead p own t s = s := by
  unfold busRead
  split
  · exact .inr (.inl ⟨_, rfl⟩)
  · split
    · split
      · exact .inr (.inl ⟨_, rfl⟩)
      · exact .inr (.inr rfl)
    · exact .inl rfl

/-- All of ACK_READ: one acknowledge access, a word read with nothing else changed, or a wait. -/
theorem execAckRead_cases (p : Master) (s : State) :
    execAckRead p s = .next (returnRead p (acknowledge p s).1 (acknowledge p s).2) ∨
      (∃ w, execAckRead p s = .next (returnRead p w s)) ∨ execAckRead p s = .next s := by
  unfold execAckRead
  split
  · exact .inr (.inr rfl)
  · rcases busRead_cases p (acknowledge p s).1 (acknowledge p s).2 s with h | ⟨w, h⟩ | h <;> rw [h]
    · exact .inl rfl
    · exact .inr (.inl ⟨w, rfl⟩)
    · exact .inr (.inr rfl)

/-- All of `ignoreIackAssertion`, in the records it writes (R86). -/
theorem ignoreIackAssertion_eq (s : State) (p : Master) :
    ignoreIackAssertion s p =
      if (s.iackInput p).level = true ∧ (s.iackInput p).change = true then
        (s.setInputs { s.inputs with
          iack := s.inputs.iack.set p.val { s.iackInput p with change := false } p.isLt }).setPort p
          { s.port p with iackHeld := true, ackWord := 0 }
      else s := by
  unfold ignoreIackAssertion takeIackChange Sampler.waiting Sampler.taken
  by_cases h : (s.iackInput p).level = true ∧ (s.iackInput p).change = true
  · simp [h]
  · have : ¬ (((s.iackInput p).change && ((s.iackInput p).level == true)) = true) := by
      simpa [and_comm] using h
    rw [if_neg h, if_neg this]

/-- What `ignoreIackAssertion` leaves as it is. -/
structure IackFrame (s t : State) : Prop where
  hubHeld  : t.hubHeld = s.hubHeld
  req      : t.inputs.req = s.inputs.req
  prst     : t.inputs.prst = s.inputs.prst
  hrst     : t.inputs.hrst = s.inputs.hrst
  trackers : t.trackers = s.trackers
  routes   : t.routes = s.routes
  contexts : t.contexts = s.contexts
  offers   : t.offers = s.offers
  period   : t.period = s.period
  tick     : t.tick = s.tick
  settings : t.settings = s.settings
  queues   : t.queues = s.queues
  pending  : t.pending = s.pending

theorem ignoreIackAssertion_frame (s : State) (p : Master) : IackFrame s (ignoreIackAssertion s p) := by
  rw [ignoreIackAssertion_eq]
  split <;> constructor <;> rfl

/-- `ignoreIackAssertion` at a port whose assertion waits. -/
theorem ignoreIackAssertion_waits {s : State} {p : Master} (h : IackWaits s p) :
    (ignoreIackAssertion s p).iackInput p = { s.iackInput p with change := false } ∧
    (ignoreIackAssertion s p).port p = { s.port p with iackHeld := true, ackWord := 0 } := by
  have h : (s.iackInput p).level = true ∧ (s.iackInput p).change = true := h
  simp [ignoreIackAssertion_eq, h]

/-- `ignoreIackAssertion` at another port, and at one whose assertion does not wait. -/
theorem ignoreIackAssertion_other {s : State} {j p : Master} (h : j ≠ p ∨ ¬ IackWaits s p) :
    (ignoreIackAssertion s j).iackInput p = s.iackInput p ∧ (ignoreIackAssertion s j).port p = s.port p := by
  rw [ignoreIackAssertion_eq]
  split
  · rename_i hw
    rcases h with hj | hj
    · have hv : j.val ≠ p.val := fun h => hj (Fin.ext h)
      simp [hj, hv, State.iackInput]
    · have hne : j ≠ p := fun h => hj (h ▸ hw)
      have hv : j.val ≠ p.val := fun h => hne (Fin.ext h)
      simp [hne, hv, State.iackInput]
  · exact ⟨rfl, rfl⟩

/-- The releases at a list of ports: each assertion that waits there is taken as no access, and nothing else changes
at any port. -/
theorem ignoreIackAssertions_at (l : List Master) (s : State) (p : Master) :
    ((p ∈ l ∧ IackWaits s p) →
      (l.foldl ignoreIackAssertion s).iackInput p = { s.iackInput p with change := false } ∧
      (l.foldl ignoreIackAssertion s).port p = { s.port p with iackHeld := true, ackWord := 0 }) ∧
    (¬ (p ∈ l ∧ IackWaits s p) →
      (l.foldl ignoreIackAssertion s).iackInput p = s.iackInput p ∧
      (l.foldl ignoreIackAssertion s).port p = s.port p) := by
  induction l generalizing s with
  | nil => simp
  | cons j l ih =>
    obtain ⟨a, b⟩ := ih (ignoreIackAssertion s j)
    rw [List.foldl_cons]
    by_cases h : j = p ∧ IackWaits s p
    · obtain ⟨rfl, hw⟩ := h
      obtain ⟨c, d⟩ := ignoreIackAssertion_waits hw
      have : ¬ IackWaits (ignoreIackAssertion s j) j := by simp [IackWaits, c]
      obtain ⟨e, f⟩ := b fun h => this h.2
      exact ⟨fun _ => ⟨e.trans c, f.trans d⟩, fun h => absurd ⟨List.mem_cons_self, hw⟩ h⟩
    · obtain ⟨c, d⟩ := ignoreIackAssertion_other (j := j) (not_and_or.1 h)
      have hi : IackWaits (ignoreIackAssertion s j) p ↔ IackWaits s p := by simp [IackWaits, c]
      rw [hi, c, d] at a
      rw [hi, c, d] at b
      refine ⟨fun ⟨hm, hw⟩ => a ⟨?_, hw⟩, fun hn => b fun hm => hn ⟨List.mem_cons_of_mem _ hm.1, hm.2⟩⟩
      exact (List.mem_cons.1 hm).resolve_left fun e => h ⟨e.symm, hw⟩

theorem ignoreIackAssertions_frame (l : List Master) (s : State) : IackFrame s (l.foldl ignoreIackAssertion s) := by
  induction l generalizing s with
  | nil => constructor <;> rfl
  | cons j l ih =>
    have a := ih (ignoreIackAssertion s j)
    have b := ignoreIackAssertion_frame s j
    exact
      { hubHeld := a.hubHeld.trans b.hubHeld, req := a.req.trans b.req, prst := a.prst.trans b.prst
        hrst := a.hrst.trans b.hrst, trackers := a.trackers.trans b.trackers, routes := a.routes.trans b.routes
        contexts := a.contexts.trans b.contexts, offers := a.offers.trans b.offers, period := a.period.trans b.period
        tick := a.tick.trans b.tick, settings := a.settings.trans b.settings, queues := a.queues.trans b.queues
        pending := a.pending.trans b.pending }

end Sys2Proof.Machine
end

