-- ==== Sys2Proof/WellFormed.lean ====
section
/-! DEFINITION. Which terms of `Instr` are rows of the table. The types already bound every master, line,
source and word; the one check left is the window offset of an ignored write. -/

namespace Sys2Proof

/-- A write to offset 00H is CMD_WRITE and no ignored write (R146); every other term is well formed. -/
def Instr.wellFormed : Instr → Bool
  | .windowWriteIgnored _ offset _ => offset != 0
  | .rise _ | .fall _ | .hubReset | .hubResetRelease _ | .portReset _ | .portResetRelease _
  | .iackPulse _ | .ackRead _ | .cmdWrite _ _ | .rplRead _ | .tick _ | .offerExpiry _
  | .deadlineExpiry _ _ | .join _ | .leave _ | .fence _ | .unfence _ | .mask _ | .unmask _
  | .thresh _ | .nest _ | .openMode _ | .quiet _ | .loud _ | .setClass _ | .setOffer _
  | .setFence _ | .bind _ | .unbind _ | .heir _ | .route _ | .urge _ | .trig _ | .auto _
  | .limit _ | .enable _ | .disable _ | .flush _ | .raise _ | .pass _ | .take _ | .poll _
  | .done _ | .doneSrc _ | .status _ | .readStack _ | .readSrc _ | .readRoute _ | .readQ _
  | .time _ | .notice _ | .undefinedCode _ | .iackRelease _ | .trefPeriod _ => true

end Sys2Proof
end

