-- ==== Sys2Proof/Laws/PerInstr.lean ====
section
/-! SUPPORT. The families of statements about every row as syntax, one lemma per constructor. -/

namespace Sys2Proof.Laws.ExecutionRow

/-- A row that executes a command is the execution row of that command at that port, and is well formed. -/
def Statement (i : Instr) : Prop :=
  ∀ p c, i.executed = some (p, c) → i = Instr.execution p c ∧ i.wellFormed = true

theorem join (p : Master) : Statement (.join p) := by
  intro q c h
  obtain ⟨rfl, rfl⟩ := Prod.mk.inj (Option.some.inj h)
  exact ⟨rfl, rfl⟩

theorem leave (p : Master) : Statement (.leave p) := by
  intro q c h
  obtain ⟨rfl, rfl⟩ := Prod.mk.inj (Option.some.inj h)
  exact ⟨rfl, rfl⟩

theorem fence (p : Master) : Statement (.fence p) := by
  intro q c h
  obtain ⟨rfl, rfl⟩ := Prod.mk.inj (Option.some.inj h)
  exact ⟨rfl, rfl⟩

theorem unfence (p : Master) : Statement (.unfence p) := by
  intro q c h
  obtain ⟨rfl, rfl⟩ := Prod.mk.inj (Option.some.inj h)
  exact ⟨rfl, rfl⟩

theorem mask (p : Master) : Statement (.mask p) := by
  intro q c h
  obtain ⟨rfl, rfl⟩ := Prod.mk.inj (Option.some.inj h)
  exact ⟨rfl, rfl⟩

theorem unmask (p : Master) : Statement (.unmask p) := by
  intro q c h
  obtain ⟨rfl, rfl⟩ := Prod.mk.inj (Option.some.inj h)
  exact ⟨rfl, rfl⟩

theorem thresh (p : Master) : Statement (.thresh p) := by
  intro q c h
  obtain ⟨rfl, rfl⟩ := Prod.mk.inj (Option.some.inj h)
  exact ⟨rfl, rfl⟩

theorem nest (p : Master) : Statement (.nest p) := by
  intro q c h
  obtain ⟨rfl, rfl⟩ := Prod.mk.inj (Option.some.inj h)
  exact ⟨rfl, rfl⟩

theorem openMode (p : Master) : Statement (.openMode p) := by
  intro q c h
  obtain ⟨rfl, rfl⟩ := Prod.mk.inj (Option.some.inj h)
  exact ⟨rfl, rfl⟩

theorem quiet (p : Master) : Statement (.quiet p) := by
  intro q c h
  obtain ⟨rfl, rfl⟩ := Prod.mk.inj (Option.some.inj h)
  exact ⟨rfl, rfl⟩

theorem loud (p : Master) : Statement (.loud p) := by
  intro q c h
  obtain ⟨rfl, rfl⟩ := Prod.mk.inj (Option.some.inj h)
  exact ⟨rfl, rfl⟩

theorem setClass (p : Master) : Statement (.setClass p) := by
  intro q c h
  obtain ⟨rfl, rfl⟩ := Prod.mk.inj (Option.some.inj h)
  exact ⟨rfl, rfl⟩

theorem setOffer (p : Master) : Statement (.setOffer p) := by
  intro q c h
  obtain ⟨rfl, rfl⟩ := Prod.mk.inj (Option.some.inj h)
  exact ⟨rfl, rfl⟩

theorem setFence (p : Master) : Statement (.setFence p) := by
  intro q c h
  obtain ⟨rfl, rfl⟩ := Prod.mk.inj (Option.some.inj h)
  exact ⟨rfl, rfl⟩

theorem bind (p : Master) : Statement (.bind p) := by
  intro q c h
  obtain ⟨rfl, rfl⟩ := Prod.mk.inj (Option.some.inj h)
  exact ⟨rfl, rfl⟩

theorem unbind (p : Master) : Statement (.unbind p) := by
  intro q c h
  obtain ⟨rfl, rfl⟩ := Prod.mk.inj (Option.some.inj h)
  exact ⟨rfl, rfl⟩

theorem heir (p : Master) : Statement (.heir p) := by
  intro q c h
  obtain ⟨rfl, rfl⟩ := Prod.mk.inj (Option.some.inj h)
  exact ⟨rfl, rfl⟩

theorem route (p : Master) : Statement (.route p) := by
  intro q c h
  obtain ⟨rfl, rfl⟩ := Prod.mk.inj (Option.some.inj h)
  exact ⟨rfl, rfl⟩

theorem urge (p : Master) : Statement (.urge p) := by
  intro q c h
  obtain ⟨rfl, rfl⟩ := Prod.mk.inj (Option.some.inj h)
  exact ⟨rfl, rfl⟩

theorem trig (p : Master) : Statement (.trig p) := by
  intro q c h
  obtain ⟨rfl, rfl⟩ := Prod.mk.inj (Option.some.inj h)
  exact ⟨rfl, rfl⟩

theorem auto (p : Master) : Statement (.auto p) := by
  intro q c h
  obtain ⟨rfl, rfl⟩ := Prod.mk.inj (Option.some.inj h)
  exact ⟨rfl, rfl⟩

theorem limit (p : Master) : Statement (.limit p) := by
  intro q c h
  obtain ⟨rfl, rfl⟩ := Prod.mk.inj (Option.some.inj h)
  exact ⟨rfl, rfl⟩

theorem enable (p : Master) : Statement (.enable p) := by
  intro q c h
  obtain ⟨rfl, rfl⟩ := Prod.mk.inj (Option.some.inj h)
  exact ⟨rfl, rfl⟩

theorem disable (p : Master) : Statement (.disable p) := by
  intro q c h
  obtain ⟨rfl, rfl⟩ := Prod.mk.inj (Option.some.inj h)
  exact ⟨rfl, rfl⟩

theorem flush (p : Master) : Statement (.flush p) := by
  intro q c h
  obtain ⟨rfl, rfl⟩ := Prod.mk.inj (Option.some.inj h)
  exact ⟨rfl, rfl⟩

theorem raise (p : Master) : Statement (.raise p) := by
  intro q c h
  obtain ⟨rfl, rfl⟩ := Prod.mk.inj (Option.some.inj h)
  exact ⟨rfl, rfl⟩

theorem pass (p : Master) : Statement (.pass p) := by
  intro q c h
  obtain ⟨rfl, rfl⟩ := Prod.mk.inj (Option.some.inj h)
  exact ⟨rfl, rfl⟩

theorem take (p : Master) : Statement (.take p) := by
  intro q c h
  obtain ⟨rfl, rfl⟩ := Prod.mk.inj (Option.some.inj h)
  exact ⟨rfl, rfl⟩

theorem poll (p : Master) : Statement (.poll p) := by
  intro q c h
  obtain ⟨rfl, rfl⟩ := Prod.mk.inj (Option.some.inj h)
  exact ⟨rfl, rfl⟩

theorem done (p : Master) : Statement (.done p) := by
  intro q c h
  obtain ⟨rfl, rfl⟩ := Prod.mk.inj (Option.some.inj h)
  exact ⟨rfl, rfl⟩

theorem doneSrc (p : Master) : Statement (.doneSrc p) := by
  intro q c h
  obtain ⟨rfl, rfl⟩ := Prod.mk.inj (Option.some.inj h)
  exact ⟨rfl, rfl⟩

theorem status (p : Master) : Statement (.status p) := by
  intro q c h
  obtain ⟨rfl, rfl⟩ := Prod.mk.inj (Option.some.inj h)
  exact ⟨rfl, rfl⟩

theorem readStack (p : Master) : Statement (.readStack p) := by
  intro q c h
  obtain ⟨rfl, rfl⟩ := Prod.mk.inj (Option.some.inj h)
  exact ⟨rfl, rfl⟩

theorem readSrc (p : Master) : Statement (.readSrc p) := by
  intro q c h
  obtain ⟨rfl, rfl⟩ := Prod.mk.inj (Option.some.inj h)
  exact ⟨rfl, rfl⟩

theorem readRoute (p : Master) : Statement (.readRoute p) := by
  intro q c h
  obtain ⟨rfl, rfl⟩ := Prod.mk.inj (Option.some.inj h)
  exact ⟨rfl, rfl⟩

theorem readQ (p : Master) : Statement (.readQ p) := by
  intro q c h
  obtain ⟨rfl, rfl⟩ := Prod.mk.inj (Option.some.inj h)
  exact ⟨rfl, rfl⟩

theorem time (p : Master) : Statement (.time p) := by
  intro q c h
  obtain ⟨rfl, rfl⟩ := Prod.mk.inj (Option.some.inj h)
  exact ⟨rfl, rfl⟩

theorem notice (p : Master) : Statement (.notice p) := by
  intro q c h
  obtain ⟨rfl, rfl⟩ := Prod.mk.inj (Option.some.inj h)
  exact ⟨rfl, rfl⟩

theorem rise (n : Line) : Statement (.rise n) := fun _ _ h => nomatch h

theorem fall (n : Line) : Statement (.fall n) := fun _ _ h => nomatch h

theorem hubReset : Statement (.hubReset) := fun _ _ h => nomatch h

theorem hubResetRelease (req : BitVec 24) : Statement (.hubResetRelease req) := fun _ _ h => nomatch h

theorem portReset (p : Master) : Statement (.portReset p) := fun _ _ h => nomatch h

theorem portResetRelease (p : Master) : Statement (.portResetRelease p) := fun _ _ h => nomatch h

theorem iackPulse (p : Master) : Statement (.iackPulse p) := fun _ _ h => nomatch h

theorem ackRead (p : Master) : Statement (.ackRead p) := fun _ _ h => nomatch h

theorem cmdWrite (p : Master) (w : Word) : Statement (.cmdWrite p w) := fun _ _ h => nomatch h

theorem rplRead (p : Master) : Statement (.rplRead p) := fun _ _ h => nomatch h

theorem windowWriteIgnored (p : Master) (o : BitVec 2) (w : Word) : Statement (.windowWriteIgnored p o w) := fun _ _ h => nomatch h

theorem tick (sm : Samples) : Statement (.tick sm) := fun _ _ h => nomatch h

theorem offerExpiry (m : Master) : Statement (.offerExpiry m) := fun _ _ h => nomatch h

theorem deadlineExpiry (m : Master) (src : Source) : Statement (.deadlineExpiry m src) := fun _ _ h => nomatch h

theorem undefinedCode (p : Master) : Statement (.undefinedCode p) := fun _ _ h => nomatch h

theorem iackRelease (p : Master) : Statement (.iackRelease p) := fun _ _ h => nomatch h

theorem trefPeriod (sm : Samples) : Statement (.trefPeriod sm) := fun _ _ h => nomatch h

end Sys2Proof.Laws.ExecutionRow
end

