-- ==== Sys2Proof/Laws/Words.lean ====
section
/-! SUPPORT. The fields read back from a command word made of them (R166), the operands read from their numbers
(R165), and the one execution of a ready command. -/

namespace Sys2Proof.Machine

@[simp] theorem operandA_commandWord (c a : BitVec 8) (b : BitVec 16) : operandA (commandWord c a b) = a := by
  unfold operandA commandWord
  ext i hi
  simp only [BitVec.getElem_extractLsb', BitVec.getLsbD_append]
  rw [if_neg (by omega), if_pos (by omega)]
  simp [hi]

@[simp] theorem operandB_commandWord (c a : BitVec 8) (b : BitVec 16) : operandB (commandWord c a b) = b := by
  unfold operandB commandWord
  ext i hi
  simp only [BitVec.getElem_extractLsb', BitVec.getLsbD_append]
  rw [if_pos (by omega)]
  simp [hi]

@[simp] theorem codeField_commandWord (c a : BitVec 8) (b : BitVec 16) : codeField (commandWord c a b) = c := by
  unfold codeField commandWord
  ext i hi
  simp only [BitVec.getElem_extractLsb', BitVec.getLsbD_append]
  rw [if_neg (by omega), if_neg (by omega)]
  simp [show 24 + i - 16 - 8 = i by omega, BitVec.getLsbD_eq_getElem hi]

@[simp] theorem sourceOf_ofNat (i : Source) : sourceOf (BitVec.ofNat 8 i.val) = i := by revert i; decide
@[simp] theorem masterOf_ofNat (i : Master) : masterOf (BitVec.ofNat 8 i.val) = i := by revert i; decide
@[simp] theorem signalOf_ofNat (i : SignalIndex) : signalOf (BitVec.ofNat 8 i.val) = i := by revert i; decide
@[simp] theorem thresholdOf_ofNat (i : Fin 9) : thresholdOf (BitVec.ofNat 8 i.val) = i := by revert i; decide
@[simp] theorem urgencyOf_ofNat (i : Urgency) : urgencyOf (BitVec.ofNat 16 i.val) = i := by revert i; decide
@[simp] theorem classOf_ofNat (i : Fin 4) : classOf (BitVec.ofNat 16 i.val) = i := by revert i; decide

/-- One execution of a ready head word whose operands and port state are accepted: the command leaves the queue, its
effect runs and its reply is appended (R149, R151). -/
theorem executeCommand_ready {c : Code} {effect : Effect} {p : Master} {s : State} {a : BitVec 8} {b : BitVec 16}
    (hn : s.resetWaits = false) (hw : (s.port p).commands.head? = some (commandWord (codeByte c) a b))
    (hr : (s.port p).replies.length + reservedWords c ≤ 16) (ho : operandsOk c a b = true)
    (hp : portStateRefusal c (s.ctx p).portState = none) :
    executeCommand c effect p s = produceReply p (codeByte c) (effect p a b (popCommand p s)) := by
  obtain ⟨rest, hq⟩ := List.head?_eq_some_iff.1 hw
  have := executeCommand_accepted (effect := effect) hn hq (codeField_commandWord ..) hr (by simpa using ho) hp
  simpa using this

end Sys2Proof.Machine
end

