-- ==== Sys2Proof/Tests/Slice0.lean ====
section
/-! SUPPORT. Tests of single steps against the spec's worked sequences and tables, and for every statement with
hypotheses a witness: states and operands that meet them, clause by clause. -/

namespace Sys2Proof.Tests

set_option Elab.async false

open Sys2Proof.Machine Sys2Proof.Safety

/-! Small states -/

/-- Master `m` ONLINE with nothing masked. -/
def joined (m : Master) (s : State) : State :=
  s.setCtx m { Context.reset with portState := .online, maskSet := 0 }

/-- M0 and M1 ONLINE, M2 and M3 OFFLINE. -/
def rack : State := joined 1 (joined 0 State.reset)

/-- Source `src` enabled with an urgency and targets. -/
def routed (src : Source) (u : Urgency) (targets : MasterSet) (s : State) : State :=
  s.setRoute src { Route.reset with urgency := u, targets := targets, enabled := true }

/-- The port state of `m` set. -/
def standing (m : Master) (ps : PortState) (s : State) : State := s.setCtx m { s.ctx m with portState := ps }

/-- Source `src` OFFERED to `m`, with expires 40. -/
def offered (src : Source) (m : Master) (s : State) : State :=
  (s.setTracker src { s.tracker src with state := .offered, holder := some m }).setOffer m
    (some { source := src, expires := some 40, raised := false })

/-- Source `src` INSERVICE at `m`, its entry newest, with due 100. -/
def served (src : Source) (m : Master) (s : State) : State :=
  (s.setTracker src { s.tracker src with state := .inService, holder := some m }).setCtx m
    { s.ctx m with
      stack := (s.ctx m).stack ++
        [{ source := src, urgency := (s.route src).urgency, via := .ack, due := some 100, merged := false,
           signal := none, raised := false }] }

/-- Every deadline expiry of `m` raised. -/
def overdue (m : Master) (s : State) : State :=
  s.setCtx m { s.ctx m with stack := (s.ctx m).stack.map (fun e => { e with raised := true }) }

/-- The command word at the head of the queue of port `p`, alone. -/
def cmd (p : Master) (code a b : Nat) (s : State) : State :=
  s.setPort p { s.port p with
    commands := [commandWord (BitVec.ofNat 8 code) (BitVec.ofNat 8 a) (BitVec.ofNat 16 b)] }

/-- Signals in the queue of Gg. -/
def queued (g : SignalIndex) (q : List Signal) (s : State) : State := s.setQueue g q

/-- A recognised change to `level` waits at REQ`n`. -/
def lineChange (n : Line) (level : Bool) (s : State) : State :=
  s.setInputs { s.inputs with
    req := s.inputs.req.set n.val { level := level, streak := 0, change := true } n.isLt }

/-- A recognised change to `level` waits at PRSTn of port `p`. -/
def prstChange (p : Master) (level : Bool) (s : State) : State :=
  s.setInputs { s.inputs with
    prst := s.inputs.prst.set p.val { level := level, streak := 0, change := true } p.isLt }

/-- A recognised change to `level` waits at IACK of port `p`. -/
def iackChange (p : Master) (level : Bool) (s : State) : State :=
  s.setInputs { s.inputs with
    iack := s.inputs.iack.set p.val { level := level, streak := 0, change := true } p.isLt }

/-- A recognised change to `level` waits at HRST. -/
def hrstChange (level : Bool) (s : State) : State :=
  s.setInputs { s.inputs with hrst := { level := level, streak := 0, change := true } }

/-- The next state of an outcome. -/
def after : Host.Outcome State Fault Refusal → State
  | .next t => t
  | .refused _ => State.reset

/-- The state of source `src`. -/
def stateOf (src : Source) (s : State) : SrcState := (s.tracker src).state

/-- The source offered to `m`. -/
def offerOf (m : Master) (s : State) : Option Source := (s.offer m).map (·.source)

/-- The sources of the stack of `m`, oldest first. -/
def stackOf (m : Master) (s : State) : List Source := (s.ctx m).stack.map (·.source)

/-- Samples with the REQ lines `req` and every pin released. -/
def lines (req : BitVec 24) : Samples := { req := req, prst := 0, iack := 0, hrst := false }

/-! Well-formedness and decoding -/

/-- A write to offset 00H is a CMD_WRITE and no ignored write. -/
theorem test_wellFormed_refuses_offset_zero : (Instr.windowWriteIgnored 0 0 5).wellFormed = false := by decide

theorem test_wellFormed_accepts_pstat_write : (Instr.windowWriteIgnored 0 1 5).wellFormed = true := by decide

/-- The table's rows give no bits, so no word spells one. -/
theorem test_no_word_spells_a_row : decodeTableWord 32 0x05030000 = none := by decide

/-- The command word of MASK 3, written out from R165. -/
theorem test_mask_word : commandWord (codeByte .mask) 3 0 = 0x05030000 := by decide

/-- ROUTE 9 {M2} FIXED: targets 4 in bits 3..0, policy 0 (R165). -/
theorem test_route_word : codeOf (codeField 0x12090004) = some .route ∧ targetsOf (operandB 0x12090004) = 4 ∧
    policyOf (operandB 0x12090004) = .fixed := by decide

theorem test_code_zero_is_undefined : codeOf 0 = none ∧ codeOf 0x27 = none ∧ codeOf 0x26 = some .notice := by decide

/-! Worked values of chapter 9 -/

/-- The take word of section 9.6: source 25, urgency 6, via ACK, sender 1, payload 300. -/
theorem test_take_word_of_9_6 :
    takeWord { source := 25, urgency := 6, via := .ack, due := none, merged := false,
               signal := some { sender := 1, payload := 300 }, raised := false } = 0xE714012C := by decide

/-- PSTAT of section 9.6: four commands, ten reply words, ONLINE, no notices, overrun set. -/
theorem test_pstat_of_a_stalled_port :
    pstatRead (rack.setPort 1 { Port.reset with
      commands := [0, 0, 0, 0], replies := [0, 0, 0, 0, 0, 0, 0, 0, 0, 0], overrun := true }) 1 = some 0x100100A0 := by
  decide +kernel

/-- READROUTE after hub reset: the source in bits 28..24, last 3, all else 0 (R169). -/
theorem test_readRoute_word_after_reset : routeWord 9 (State.reset.route 9) = 0x09300000 := by decide +kernel

/-- STATUS after hub reset: the master in bits 29..28 and a full mask set (R169). -/
theorem test_status_word_after_reset :
    statusWord 2 (State.reset.ctx 2) (State.reset.offer 2) = 0x20000000 ∧
    (State.reset.ctx 2).maskSet = 0xFFFFFFFF := by decide +kernel

/-! Lines and timebase -/

/-- Section 1.8: a rise on REQ5 makes source 5 PENDING and the pass offers it to M1. -/
theorem test_rise_edge_is_offered :
    let t := after (exec (.rise 5) (lineChange 5 true (routed 5 4 2 rack)))
    stateOf 5 t = .offered ∧ offerOf 1 t = some 5 ∧ (t.tracker 5).line = true := by decide +kernel

/-- Section 1.8: a second rise of an OFFERED edge source sets merged. -/
theorem test_rise_merges_when_offered :
    let t := after (exec (.rise 5) (lineChange 5 true (offered 5 1 (routed 5 4 2 rack))))
    stateOf 5 t = .offered ∧ (t.tracker 5).merged = true := by decide +kernel

/-- A deassert of an OFFERED level source makes it IDLE and empties the record (R11). -/
theorem test_fall_withdraws_level_offer :
    let s := offered 5 1 (routed 5 4 2 rack)
    let t := after (exec (.fall 5) (lineChange 5 false (s.setRoute 5 { s.route 5 with trigger := .level })))
    stateOf 5 t = .idle ∧ t.offer 1 = none := by decide +kernel

/-- A fall of an EDGE source changes the line field alone (R10). -/
theorem test_fall_of_edge_source :
    let t := after (exec (.fall 5) (lineChange 5 false (offered 5 1 (routed 5 4 2 rack))))
    stateOf 5 t = .offered ∧ (t.tracker 5).line = false := by decide +kernel

/-- The second sample recognises the rise (R2). -/
theorem test_second_sample_recognises :
    let s1 := after (exec (.trefPeriod (lines 1)) rack)
    let s2 := after (exec (.trefPeriod (lines 1)) s1)
    (s1.reqLine 0).change = false ∧ (s2.reqLine 0).waiting true = true ∧ s2.period = 2 := by decide +kernel

/-- The recognised rise is taken before the next sample of its line (R3). -/
theorem test_change_is_taken_before_the_next_sample :
    let s := lineChange 0 true rack
    after (exec (.trefPeriod (lines 0)) s) = s ∧
    (after (exec (.trefPeriod (lines 0)) (after (exec (.rise 0) s)))).period = 1 := by decide +kernel

/-- HRST takes four samples (R159). -/
theorem test_fourth_sample_recognises_hrst :
    let high : Samples := { lines 0 with hrst := true }
    let s3 := rack.setInputs { rack.inputs with hrst := { level := false, streak := 3, change := false } }
    (after (exec (.trefPeriod high) s3)).inputs.hrst.waiting true = true ∧
    (after (exec (.trefPeriod high) rack)).inputs.hrst.change = false := by decide +kernel

/-- A tick wraps the tick count to 0 and raises the expiry that falls due there (R109, R111, R114). -/
theorem test_tick_wraps_and_raises :
    let s := (served 8 1 rack).setOffer 0 (some { source := 3, expires := some 0, raised := false })
    let t := after (exec (.tick (lines 0)) { s with period := 63, tick := 0xFFFFFFFF })
    t.tick = 0 ∧ t.period = 0 ∧ (t.offer 0).map (·.raised) = some true ∧
    (t.ctx 1).stack.map (·.raised) = [false] := by decide +kernel

/-- The period after count 62 is no tick, and the row TICK there changes nothing (log 3). -/
theorem test_tick_needs_the_64th_period :
    (after (exec (.tick (lines 0)) { rack with period := 62 })).tick = 0 := by decide +kernel

/-! Resets -/

theorem test_hubReset_empties_a_record :
    let t := after (exec .hubReset (hrstChange true (offered 5 1 rack)))
    t.hubHeld = true ∧ t.offer 1 = none ∧ (t.ctx 1).portState = .offline := by decide +kernel

/-- A line high at the release gives no rise (R4). -/
theorem test_hubReset_release_loads_a_high_line :
    let s := { hrstChange false State.reset with hubHeld := true }
    let t := after (exec (.hubResetRelease 0x800000) s)
    (t.tracker 23).line = true ∧ (t.reqLine 23).change = false ∧ t.hubHeld = false := by decide +kernel

/-- Section 2.8: M0, M2 ONLINE, M1 LEAVING; M0 binds 3 (heir M2), 9 (heir M1), 26; M2 binds 14 (heir M0). -/
def passageRack : State :=
  let s := standing 1 .leaving (joined 2 rack)
  let bound := fun (src : Source) (m : Master) (h : Option Master) (s : State) =>
    s.setRoute src { s.route src with binder := some m, heir := h }
  bound 14 2 (some 0) (bound 26 0 none (bound 9 0 (some 1) (bound 3 0 (some 2) s)))

/-- Section 2.8: the routes after the port reset of M0. -/
theorem test_portReset_passes_bindings :
    let t := after (exec (.portReset 0) (prstChange 0 true passageRack))
    ((t.route 3).binder, (t.route 3).heir) = (some 2, none) ∧ (t.route 9).binder = none ∧
    (t.route 26).binder = none ∧ ((t.route 14).binder, (t.route 14).heir) = (some 2, some 0) := by decide +kernel

/-- Section 2.8: INHERITED 3 stands before LEFT M0 at M2; M1, LEAVING, hears LEFT alone. -/
theorem test_portReset_notices :
    let t := after (exec (.portReset 0) (prstChange 0 true passageRack))
    (t.port 2).notices = [.inherited 3, .left 0] ∧ (t.port 1).notices = [.left 0] ∧
    (t.ctx 0).portState = .offline ∧ (t.port 0).resetHeld = true := by decide +kernel

/-- PRSTn is held to the recognition of its release (R49): a write that comes before the release row is appended. -/
theorem test_portReset_release_opens_the_window :
    let s := prstChange 0 false rack
    let h := s.setPort 0 { s.port 0 with resetHeld := true }
    let t := after (exec (.portResetRelease 0) (after (exec (.cmdWrite 0 7) h)))
    pstatRead h 0 = some 0x00010004 ∧ (t.port 0).commands = [7] ∧ windowHeld t 0 = false := by decide +kernel

/-- HRST is held to the recognition of its release (R159): a write then is kept, its execution waits for the row. -/
theorem test_hub_release_opens_the_windows :
    let h := { hrstChange false State.reset with hubHeld := true }
    let s := after (exec (.cmdWrite 0 0x01000000) h)
    let t := after (exec (.join 0) (after (exec (.hubResetRelease 0) s)))
    pstatRead h 0 = some 4 ∧ after (exec (.join 0) s) = s ∧ (t.ctx 0).portState = .online := by decide +kernel

/-- IACK recognised in the reset and held through its release starts no access (R86). -/
theorem test_iack_held_through_release_takes_nothing :
    let s := iackChange 1 true (prstChange 1 false (offered 5 1 rack))
    let t := after (exec (.portResetRelease 1) (s.setPort 1 { s.port 1 with resetHeld := true }))
    after (exec (.iackPulse 1) t) = t ∧ (t.port 1).iackHeld = true ∧ pstatRead t 1 = some 0 := by decide +kernel

/-- The same through the release of HRST (R86). -/
theorem test_iack_held_through_hub_release_takes_nothing :
    let s := iackChange 1 true (hrstChange false rack)
    let t := after (exec (.hubResetRelease 0) { s with hubHeld := true })
    after (exec (.iackPulse 1) t) = t ∧ (t.port 1).iackHeld = true ∧ (t.port 0).iackHeld = false := by decide +kernel

/-! The window -/

/-- The fifth word is discarded and sets the overrun flag (R147). -/
theorem test_cmdWrite_overruns :
    let t := after (exec (.cmdWrite 1 9) (rack.setPort 1 { Port.reset with commands := [1, 2, 3, 4] }))
    (t.port 1).commands = [1, 2, 3, 4] ∧ (t.port 1).overrun = true := by decide +kernel

theorem test_rplRead_pops_in_order :
    let t := after (exec (.rplRead 1) (rack.setPort 1 { Port.reset with replies := [7, 8] }))
    (t.port 1).readData = 7 ∧ (t.port 1).replies = [8] := by decide +kernel

theorem test_window_write_ignored : after (exec (.windowWriteIgnored 1 2 9) rack) = rack := by decide +kernel

/-- Section 9.6 and 10.5: the ACK read of source 25 takes it with the head's sender and payload. -/
theorem test_ackRead_takes_a_signal :
    let s := offered 25 0 (routed 25 6 1 (queued 1 [{ sender := 1, payload := 300 }] rack))
    let t := after (exec (.ackRead 0) s)
    (t.port 0).readData = 0xE714012C ∧ stackOf 0 t = [25] ∧ t.offer 0 = none ∧ (t.queue 1).length = 1 := by
  decide +kernel

/-- With no offer the ACK read returns the NONE take word (R85). -/
theorem test_ackRead_none : (after (exec (.ackRead 1) rack)) = rack := by decide +kernel

/-- R50: from the recognition of PRSTn on INTQ is low, and no command finds the master ONLINE. -/
theorem test_recognised_port_reset_comes_first :
    let s := prstChange 0 true (cmd 1 0x20 0 0 (offered 31 0 rack))
    s.intq 0 = false ∧ after (exec (.status 1) s) = s ∧ after (exec (.offerExpiry 0) s) = s := by decide +kernel

/-- R159: while HRST is held PRSTn has no effect, from the recognition on. -/
theorem test_recognised_hub_reset_comes_before_port_reset :
    let s := hrstChange true (prstChange 0 true rack)
    after (exec (.portReset 0) s) = s := by decide +kernel

/-- R4: a rise recognised with the assertion of HRST is discarded by hub reset. -/
theorem test_hub_reset_discards_a_recognised_rise :
    let s := hrstChange true (lineChange 3 true rack)
    after (exec (.rise 3) s) = s ∧ ((after (exec .hubReset s)).reqLine 3).change = false := by decide +kernel

/-- The take word of a pulse stays on the data lines (R86, R156). -/
theorem test_iackPulse_holds_its_word :
    let s := iackChange 0 true (offered 3 0 (routed 3 5 1 rack))
    let t := after (exec (.iackPulse 0) s)
    pstatRead t 0 = some 0x8E900000 ∧ (after (exec (.ackRead 0) t)).offer 0 = none ∧ stackOf 0 t = [3] := by decide +kernel

/-- From the recognition of the assertion a read is no access (R86, R156). -/
theorem test_read_under_iack_is_no_access :
    let s := iackChange 0 true (offered 3 0 (routed 3 5 1 rack))
    after (exec (.ackRead 0) s) = s ∧ pstatRead s 0 = none := by decide +kernel

theorem test_iackRelease_clears_the_lines :
    let s := iackChange 0 false rack
    let t := after (exec (.iackRelease 0) (s.setPort 0 { s.port 0 with iackHeld := true, ackWord := 9 }))
    (t.port 0).iackHeld = false ∧ pstatRead t 0 = some 0x00010004 := by decide +kernel

/-! Offers, takes, completions -/

/-- Section 4.9: M0 holds source 7, M1 holds source 18, and the edge on REQ20 comes. -/
def chainRack : State :=
  lineChange 20 true (offered 18 1 (offered 7 0 (routed 20 6 1 (routed 18 2 2 (routed 7 3 3 rack)))))

/-- Section 4.9: the chain of replacements. -/
theorem test_replacement_chain :
    let t := after (exec (.rise 20) { chainRack with tick := 4000 })
    (t.offer 0).map (fun o => (o.source, o.expires)) = some (20, some 4032) ∧
    (t.offer 1).map (fun o => (o.source, o.expires)) = some (7, some 4032) ∧ stateOf 18 t = .pending := by
  decide +kernel

/-- Section 4.9: M1 takes source 7 and is then nested too high for source 18. -/
theorem test_take_raises_the_level :
    let t := after (exec (.ackRead 1) (after (exec (.rise 20) chainRack)))
    t.offer 1 = none ∧ stateOf 18 t = .pending ∧ stackOf 1 t = [7] := by decide +kernel

/-- Section 4.10: the expiry at the last target clears the pass set, and the source starts again at M1. -/
theorem test_offer_expiry_cycles_rotate :
    let r := fun (s : State) => s.setRoute 9 { Route.reset with
      urgency := 4, targets := 7, policy := .rotate, last := 0, enabled := true, trigger := .level }
    let s := offered 9 0 (r (joined 2 rack))
    let s := s.setTracker 9 { s.tracker 9 with passSet := 6 }
    let t := after (exec (.offerExpiry 0) (s.setOffer 0 (some { source := 9, expires := some 1096, raised := true })))
    offerOf 1 t = some 9 ∧ (t.tracker 9).passSet = 0 := by decide +kernel

/-- The expiry of an offer that is not raised is void (R79). -/
theorem test_offer_expiry_void : after (exec (.offerExpiry 0) (offered 9 0 rack)) = offered 9 0 rack := by
  decide +kernel

theorem test_pass_moves_the_offer_on :
    let t := after (exec (.pass 0) (cmd 0 0x1B 0 0 (offered 3 0 (routed 3 5 3 rack))))
    offerOf 1 t = some 3 ∧ (t.tracker 3).passSet = 1 ∧ (t.port 0).replies = [0x1B010000] := by decide +kernel

theorem test_take_replies_the_take_word :
    let t := after (exec (.take 0) (cmd 0 0x1C 0 0 (offered 3 0 (routed 3 5 1 rack))))
    (t.port 0).replies = [0x1C011000, 0x8EA00000] ∧ stackOf 0 t = [3] := by decide +kernel

/-- A take with autodone on pushes no entry, and an edge source rests (R95). -/
theorem test_take_autodone :
    let s := offered 3 0 (routed 3 5 1 rack)
    let t := after (exec (.take 0) (cmd 0 0x1C 0 0 (s.setRoute 3 { s.route 3 with autodone := true })))
    stackOf 0 t = [] ∧ stateOf 3 t = .idle ∧ (t.route 3).last = 0 := by decide +kernel

/-- POLL prefers a strictly more urgent PENDING source to the caller's own offer, which the push withdraws (R91). -/
theorem test_poll_prefers_the_more_urgent :
    let s := offered 3 0 (routed 3 5 1 (routed 2 6 1 rack))
    let s := (s.setTracker 2 { s.tracker 2 with state := .pending }).setCtx 0 { s.ctx 0 with lineMode := .line }
    let t := after (exec (.poll 0) (cmd 0 0x1D 0 0 s))
    stackOf 0 t = [2] ∧ t.offer 0 = none ∧ stateOf 3 t = .pending := by decide +kernel

theorem test_poll_none :
    ((after (exec (.poll 1) (cmd 1 0x1D 0 0 rack))).port 1).replies = [0x1D020000] := by decide +kernel

/-- Section 1.8: completion with again set makes the source PENDING, and the pass offers it again. -/
theorem test_done_redelivers_again :
    let s := served 5 1 (routed 5 4 2 rack)
    let s := s.setTracker 5 { s.tracker 5 with again := true, merged := true }
    let t := after (exec (.done 1) (cmd 1 0x1E 0 0 s))
    stateOf 5 t = .offered ∧ (t.tracker 5).merged = true ∧ (t.tracker 5).again = false := by decide +kernel

/-- The completion of a LEAVING master's last entry ends its leaving (R107). -/
theorem test_done_ends_leaving :
    let t := after (exec (.done 1) (cmd 1 0x1E 0 0 (standing 1 .leaving (served 5 1 rack))))
    (t.ctx 1).portState = .offline ∧ (t.port 0).notices = [.left 1] ∧ (t.port 1).replies = [0x1E010000] := by
  decide +kernel

/-- Section 7.8: the completion of the last signal empties the queue. -/
theorem test_doneSrc_consumes_the_head :
    let s := served 27 1 (queued 3 [{ sender := 1, payload := 10 }] rack)
    let t := after (exec (.doneSrc 1) (cmd 1 0x1F 27 0 s))
    t.queue 3 = [] ∧ stateOf 27 t = .idle := by decide +kernel

/-- Section 10.3: DONESRC of a reclaimed source answers LATE once. -/
theorem test_doneSrc_late :
    let t := after (exec (.doneSrc 0) (cmd 0 0x1F 2 0 (rack.setCtx 0 { rack.ctx 0 with reclaimed := [2] })))
    (t.port 0).replies = [0x1F030000] ∧ (t.ctx 0).reclaimed = [] := by decide +kernel

/-- Section 6.7: M1's stack 4, 8, 26 with both deadlines raised and fence threshold 2. -/
def overdueRack : State :=
  let s := routed 26 1 3 (routed 8 6 3 (routed 4 3 2 rack))
  let s := queued 2 [{ sender := 0, payload := 1 }] (served 26 1 (served 8 1 (served 4 1 s)))
  overdue 1 (s.setSettings { s.settings with fenceThreshold := 2 })

/-- Section 6.7: the first expiry is charged and source 8 goes to M0. -/
theorem test_deadline_charges :
    let t := after (exec (.deadlineExpiry 1 8) overdueRack)
    stackOf 1 t = [4, 26] ∧ (t.ctx 1).reclaimed = [8] ∧ (t.ctx 1).missCount = 1 ∧ offerOf 0 t = some 8 := by
  decide +kernel

/-- Section 6.7: the second expiry fences M1. -/
theorem test_deadline_fences :
    let t := after (exec (.deadlineExpiry 1 26) (after (exec (.deadlineExpiry 1 8) overdueRack)))
    (t.ctx 1).portState = .fenced ∧ (t.ctx 1).reclaimed = [8, 26, 4] ∧
    (t.port 1).notices = [.reclaimed 8 true, .reclaimed 26 true, .reclaimed 4 false] ∧
    (t.port 0).notices = [.fenced 1] := by decide +kernel

/-! Membership -/

theorem test_join_tells_the_others :
    let t := after (exec (.join 2) (cmd 2 0x01 0 0 rack))
    (t.ctx 2).portState = .online ∧ (t.port 0).notices = [.joined 2] ∧ (t.port 3).notices = [] := by decide +kernel

theorem test_leave_with_entries :
    let t := after (exec (.leave 1) (cmd 1 0x02 0 0 (served 5 1 rack)))
    (t.ctx 1).portState = .leaving ∧ (t.port 0).notices = [] ∧ stackOf 1 t = [5] := by decide +kernel

theorem test_fence_reclaims_uncharged :
    let t := after (exec (.fence 0) (cmd 0 0x03 1 0 (served 5 1 rack)))
    (t.ctx 1).portState = .fenced ∧ (t.port 1).notices = [.reclaimed 5 false] ∧
    (t.tracker 5).passSet = 2 := by decide +kernel

theorem test_unfence_readmits :
    let s := standing 1 .fenced rack
    let t := after (exec (.unfence 0) (cmd 0 0x04 1 0 (s.setPort 1 { s.port 1 with notices := [.left 2] })))
    (t.ctx 1).portState = .offline ∧ (t.port 1).notices = [] := by decide +kernel

/-! Masks, modes, settings, routes -/

theorem test_mask_withdraws :
    let t := after (exec (.mask 0) (cmd 0 0x05 3 0 (offered 3 0 (routed 3 5 3 rack))))
    offerOf 1 t = some 3 ∧ (t.ctx 0).maskSet = 8 ∧ (t.tracker 3).passSet = 0 := by decide +kernel

theorem test_unmask_clears_one_flag :
    let t := after (exec (.unmask 2) (cmd 2 0x06 31 0 (standing 2 .online rack)))
    (t.ctx 2).maskSet = 0x7FFFFFFF := by decide +kernel

theorem test_thresh_eight_admits_none :
    let t := after (exec (.thresh 0) (cmd 0 0x07 8 0 (offered 3 0 (routed 3 7 1 rack))))
    t.offer 0 = none ∧ stateOf 3 t = .pending := by decide +kernel

theorem test_nest_busy :
    ((after (exec (.nest 0) (cmd 0 0x08 0 0 (served 3 0 rack)))).port 0).replies = [0x08160000] := by decide +kernel

theorem test_open_sets_the_mode :
    ((after (exec (.openMode 0) (cmd 0 0x09 0 0 rack))).ctx 0).nesting = .openMode := by decide +kernel

theorem test_quiet_withdraws :
    let t := after (exec (.quiet 0) (cmd 0 0x0A 0 0 (offered 3 0 (routed 3 5 1 rack))))
    t.offer 0 = none ∧ (t.ctx 0).lineMode = .quiet := by decide +kernel

theorem test_loud_is_offered :
    let s := routed 3 5 1 (rack.setCtx 0 { rack.ctx 0 with lineMode := .quiet })
    let t := after (exec (.loud 0) (cmd 0 0x0B 0 0 (s.setTracker 3 { s.tracker 3 with state := .pending })))
    offerOf 0 t = some 3 := by decide +kernel

theorem test_setClass_needs_the_sole_member :
    ((after (exec (.setClass 0) (cmd 0 0x0C 3 65535 rack))).port 0).replies = [0x0C190000] ∧
    (after (exec (.setClass 0) (cmd 0 0x0C 3 65535 (joined 0 State.reset)))).settings.class3 = 65535 := by
  decide +kernel

theorem test_setOffer_sets_the_limit :
    (after (exec (.setOffer 0) (cmd 0 0x0D 255 0 (joined 0 State.reset)))).settings.offerLimit = 255 := by
  decide +kernel

theorem test_setFence_clears_the_count :
    let s := joined 0 State.reset
    let t := after (exec (.setFence 0) (cmd 0 0x0E 7 0 (s.setCtx 0 { s.ctx 0 with missCount := 2 })))
    t.settings.fenceThreshold = 7 ∧ (t.ctx 0).missCount = 0 := by decide +kernel

theorem test_bind_then_notOwner :
    let t := after (exec (.bind 0) (cmd 0 0x0F 9 0 rack))
    (t.route 9).binder = some 0 ∧
    ((after (exec (.urge 1) (cmd 1 0x13 9 7 t))).port 1).replies = [0x13150000] := by decide +kernel

theorem test_unbind_unbound_is_state :
    ((after (exec (.unbind 0) (cmd 0 0x10 9 0 rack))).port 0).replies = [0x10130000] := by decide +kernel

theorem test_heir_of_the_binder_is_badArg :
    let s := rack.setRoute 9 { rack.route 9 with binder := some 0 }
    ((after (exec (.heir 0) (cmd 0 0x11 9 0 s))).port 0).replies = [0x11110000] ∧
    ((after (exec (.heir 0) (cmd 0 0x11 9 3 s))).route 9).heir = some 3 := by decide +kernel

theorem test_route_withdraws_from_a_non_target :
    let t := after (exec (.route 0) (cmd 0 0x12 3 0x22 (offered 3 0 (routed 3 5 1 rack))))
    offerOf 1 t = some 3 ∧ t.offer 0 = none ∧ (t.route 3).policy = .least := by decide +kernel

theorem test_urge_below_the_threshold_withdraws :
    let s := offered 3 0 (routed 3 5 1 rack)
    let t := after (exec (.urge 0) (cmd 0 0x13 3 1 (s.setCtx 0 { s.ctx 0 with threshold := 2 })))
    t.offer 0 = none ∧ (t.route 3).urgency = 1 := by decide +kernel

/-- TRIG LEVEL with the line high makes an IDLE source PENDING; it is still disabled (R28). -/
theorem test_trig_level_reads_the_line :
    let s := rack.setTracker 23 { rack.tracker 23 with line := true }
    stateOf 23 (after (exec (.trig 0) (cmd 0 0x14 23 1 s))) = .pending := by decide +kernel

theorem test_trig_refuses_a_signal_source :
    ((after (exec (.trig 0) (cmd 0 0x14 24 1 rack))).port 0).replies = [0x14110000] := by decide +kernel

theorem test_auto_on_of_level_is_badCombo :
    let s := rack.setRoute 3 { rack.route 3 with trigger := .level }
    ((after (exec (.auto 0) (cmd 0 0x15 3 1 s))).port 0).replies = [0x15170000] := by decide +kernel

theorem test_limit_sets_the_class :
    ((after (exec (.limit 0) (cmd 0 0x16 31 3 rack))).route 31).limitClass = 3 := by decide +kernel

/-- A source that became PENDING while disabled is offered at ENABLE (R31). -/
theorem test_enable_offers :
    let s := rack.setRoute 3 { Route.reset with targets := 2 }
    let t := after (exec (.enable 0) (cmd 0 0x17 3 0 (s.setTracker 3 { s.tracker 3 with state := .pending })))
    offerOf 1 t = some 3 := by decide +kernel

theorem test_disable_withdraws :
    let t := after (exec (.disable 0) (cmd 0 0x18 3 0 (offered 3 0 (routed 3 5 3 rack))))
    stateOf 3 t = .pending ∧ t.offer 0 = none ∧ t.offer 1 = none := by decide +kernel

/-! Signals, queries, notices -/

/-- Section 7.8: RAISE 3, payload 10, by M1. -/
theorem test_raise_appends :
    let t := after (exec (.raise 1) (cmd 1 0x1A 3 10 (routed 27 4 5 rack)))
    t.queue 3 = [{ sender := 1, payload := 10 }] ∧ offerOf 0 t = some 27 := by decide +kernel

/-- Section 7.8: a fifth signal is refused FULL. -/
theorem test_raise_full :
    let q : List Signal := List.replicate 4 { sender := 1, payload := 10 }
    let t := after (exec (.raise 1) (cmd 1 0x1A 3 13 (queued 3 q rack)))
    (t.port 1).replies = [0x1A180000] ∧ t.queue 3 = q := by decide +kernel

/-- Section 7.8: FLUSH of a serviced source keeps the head. -/
theorem test_flush_keeps_the_head :
    let s := served 27 0 (queued 3 [{ sender := 1, payload := 10 }, { sender := 2, payload := 11 }] rack)
    (after (exec (.flush 0) (cmd 0 0x19 3 0 s))).queue 3 = [{ sender := 1, payload := 10 }] := by decide +kernel

theorem test_status_is_answered_offline :
    ((after (exec (.status 3) (cmd 3 0x20 3 0 rack))).port 3).replies = [0x20012000, 0x30000000, 0xFFFFFFFF] := by
  decide +kernel

theorem test_readStack_beyond_the_depth :
    ((after (exec (.readStack 0) (cmd 0 0x21 1 1 (served 5 1 rack)))).port 0).replies = [0x21010000] ∧
    ((after (exec (.readStack 0) (cmd 0 0x21 1 0 (served 5 1 rack)))).port 0).replies =
      [0x21012000, 0x94100000, 100] := by decide +kernel

theorem test_readSrc_word :
    ((after (exec (.readSrc 0) (cmd 0 0x22 5 0 (offered 5 1 rack)))).port 0).replies = [0x22011000, 0x0500000E] := by
  decide +kernel

theorem test_readRoute_word :
    ((after (exec (.readRoute 3) (cmd 3 0x23 9 0 rack))).port 3).replies = [0x23011000, 0x09300000] := by
  decide +kernel

theorem test_readQ_words :
    ((after (exec (.readQ 0) (cmd 0 0x24 7 0 (queued 7 [{ sender := 2, payload := 11 }] rack)))).port 0).replies =
      [0x24012000, 0x07000001, 0x0002000B] := by decide +kernel

theorem test_time_word :
    ((after (exec (.time 2) (cmd 2 0x25 0 0 { rack with tick := 8051 }))).port 2).replies = [0x25011000, 8051] := by
  decide +kernel

/-- NOTICE reports and clears the notice-overflow flag (R161). -/
theorem test_notice_reports_overflow :
    let s := rack.setPort 0 { Port.reset with notices := [.reclaimed 8 true], noticeOverflow := true }
    let t := after (exec (.notice 0) (cmd 0 0x26 0 0 s))
    (t.port 0).replies = [0x26011400, 0x00008804] ∧ (t.port 0).noticeOverflow = false := by decide +kernel

/-- An undefined code is answered BADCMD whatever its operands, and its header carries the overrun flag (R148,
R166). -/
theorem test_undefined_code :
    let s := cmd 0 0x27 1 1 rack
    let t := after (exec (.undefinedCode 0) (s.setPort 0 { s.port 0 with overrun := true }))
    (t.port 0).replies = [0x27100800] ∧ (t.port 0).overrun = false := by decide +kernel

/-- A TAKE of a LEAVING master is refused STATE (R40). -/
theorem test_leaving_refuses_take :
    ((after (exec (.take 1) (cmd 1 0x1C 0 0 (standing 1 .leaving rack)))).port 1).replies = [0x1C130000] := by
  decide +kernel

/-- One step takes the front command; an empty queue idles (log 4). -/
theorem test_step_takes_the_front :
    (after (step (rack.withPending [.cmdWrite 1 9, .rplRead 1]))).pending = [.rplRead 1] ∧
    after (step rack) = rack := by decide +kernel

/-! Witnesses: one theorem for each statement with hypotheses, one conjunct or more for each clause, at boundary
values of the operands. -/

theorem witness_HubResetClearsEverything :
    (hrstChange true chainRack).inputs.hrst.level = true ∧ (hrstChange true chainRack).inputs.hrst.change = true := by
  decide +kernel

theorem witness_HubReleaseLoadsTheLines :
    let s := { iackChange 3 true (hrstChange false rack) with hubHeld := true }
    s.hubHeld = true ∧ s.inputs.hrst.level = false ∧ s.inputs.hrst.change = true ∧ IackWaits s 3 ∧
    ¬ IackWaits s 0 := by unfold IackWaits; decide +kernel

theorem witness_PortResetOfPresentMaster :
    let s := prstChange 3 true (standing 3 .fenced chainRack)
    let u := prstChange 0 true passageRack
    ((s.prstInput 3).level = true ∧ (s.prstInput 3).change = true ∧ s.hubHeld = false ∧ ¬ HrstWaits s ∧
      (s.ctx 3).portState ≠ .offline) ∧
    ((u.prstInput 0).level = true ∧ (u.prstInput 0).change = true ∧ u.hubHeld = false ∧ ¬ HrstWaits u ∧
      (u.ctx 0).portState ≠ .offline) := by decide +kernel

theorem witness_PortResetOfOfflineMasterAndRelease :
    let s := prstChange 3 true rack
    let held := { prstChange 0 true rack with hubHeld := true }
    let u := prstChange 0 false rack
    let w := iackChange 0 true u
    ((s.prstInput 3).change = true ∧ (s.prstInput 3).level = true ∧ s.hubHeld = false ∧ ¬ HrstWaits s ∧
      (s.ctx 3).portState = .offline) ∧
    ((held.prstInput 0).change = true ∧ (held.prstInput 0).level = true ∧ held.hubHeld = true ∧
      ¬ HrstWaits held) ∧
    (((hrstChange true s).prstInput 3).change = true ∧ HrstWaits (hrstChange true s)) ∧
    ((u.prstInput 0).change = true ∧ (u.prstInput 0).level = false ∧ ¬ IackWaits u 0) ∧
    ((w.prstInput 0).change = true ∧ (w.prstInput 0).level = false ∧ IackWaits w 0) := by
  unfold IackWaits; decide +kernel

theorem witness_EdgeEventActsByState :
    let idle := lineChange 23 true rack
    let pending := lineChange 0 true (rack.setTracker 0 { rack.tracker 0 with state := .pending })
    let off := lineChange 0 true (offered 0 0 rack)
    let first := lineChange 23 true (served 23 1 rack)
    let second := first.setTracker 23 { first.tracker 23 with again := true }
    (NoResetWaits idle ∧ (idle.reqLine 23).level = true ∧ (idle.reqLine 23).change = true ∧
      (idle.route (lineSource 23)).trigger = .edge ∧ stateOf (lineSource 23) idle = .idle) ∧
    (NoResetWaits pending ∧ (pending.reqLine 0).level = true ∧ (pending.reqLine 0).change = true ∧
      (pending.route (lineSource 0)).trigger = .edge ∧ stateOf (lineSource 0) pending = .pending) ∧
    (NoResetWaits off ∧ (off.reqLine 0).level = true ∧ (off.reqLine 0).change = true ∧
      (off.route (lineSource 0)).trigger = .edge ∧ stateOf (lineSource 0) off = .offered) ∧
    (NoResetWaits first ∧ (first.reqLine 23).level = true ∧ (first.reqLine 23).change = true ∧
      (first.route (lineSource 23)).trigger = .edge ∧ stateOf (lineSource 23) first = .inService ∧
      (first.tracker (lineSource 23)).again = false) ∧
    (NoResetWaits second ∧ (second.reqLine 23).level = true ∧ (second.reqLine 23).change = true ∧
      (second.route (lineSource 23)).trigger = .edge ∧ stateOf (lineSource 23) second = .inService ∧
      (second.tracker (lineSource 23)).again = true) := by decide +kernel

/-- Source `src` a LEVEL source. -/
def levelled (src : Source) (s : State) : State := s.setRoute src { s.route src with trigger := .level }

theorem witness_AssertEventAndEdgeFall :
    let idle := lineChange 23 true (levelled 23 rack)
    let off := lineChange 0 true (levelled 0 (offered 0 0 rack))
    let fall := lineChange 0 false rack
    (NoResetWaits idle ∧ (idle.reqLine 23).change = true ∧ (idle.reqLine 23).level = true ∧
      (idle.route (lineSource 23)).trigger = .level ∧ stateOf (lineSource 23) idle = .idle) ∧
    (NoResetWaits off ∧ (off.reqLine 0).change = true ∧ (off.reqLine 0).level = true ∧
      (off.route (lineSource 0)).trigger = .level ∧ stateOf (lineSource 0) off ≠ .idle) ∧
    (NoResetWaits fall ∧ (fall.reqLine 0).change = true ∧ (fall.reqLine 0).level = false ∧
      (fall.route (lineSource 0)).trigger = .edge) := by decide +kernel

theorem witness_DeassertEventActsByState :
    let idle := lineChange 23 false (levelled 23 rack)
    let held := lineChange 0 false (levelled 0 (served 0 1 rack))
    let pending := lineChange 0 false (levelled 0 (rack.setTracker 0 { rack.tracker 0 with state := .pending }))
    let off := lineChange 23 false (levelled 23 (offered 23 1 rack))
    (NoResetWaits idle ∧ (idle.reqLine 23).level = false ∧ (idle.reqLine 23).change = true ∧
      (idle.route (lineSource 23)).trigger = .level ∧ stateOf (lineSource 23) idle = .idle) ∧
    (NoResetWaits held ∧ (held.reqLine 0).level = false ∧ (held.reqLine 0).change = true ∧
      (held.route (lineSource 0)).trigger = .level ∧ stateOf (lineSource 0) held = .inService) ∧
    (NoResetWaits pending ∧ (pending.reqLine 0).level = false ∧ (pending.reqLine 0).change = true ∧
      (pending.route (lineSource 0)).trigger = .level ∧ stateOf (lineSource 0) pending = .pending) ∧
    (NoResetWaits off ∧ (off.reqLine 23).level = false ∧ (off.reqLine 23).change = true ∧
      (off.route (lineSource 23)).trigger = .level ∧ stateOf (lineSource 23) off = .offered ∧
      (off.tracker (lineSource 23)).holder = some 1) := by decide +kernel

theorem witness_PeriodSamplesEveryInput :
    (NoChangeWaits rack ∧ rack.hubHeld = false ∧ rack.period ≠ 63) ∧
    ({ rack with period := 62 }.hubHeld = false ∧ { rack with period := 62 }.period ≠ 63) ∧
    (NoChangeWaits { rack with hubHeld := true } ∧ { rack with hubHeld := true }.hubHeld = true) ∧
    ¬ NoChangeWaits (lineChange 23 true rack) := by unfold NoChangeWaits; decide +kernel

theorem witness_TwoSamplesRecogniseAChange :
    let s := { rack with period := 61 }
    let t := after (exec (.trefPeriod (lines 0x800000)) s)
    (NoChangeWaits s ∧ s.hubHeld = false ∧ s.period ≠ 63 ∧ (s.reqLine 23).streak = 0 ∧ (t.reqLine 23).streak = 1) ∧
    ((lines 0x800000).req.getLsbD 23 = !(s.reqLine 23).level) ∧ ((lines 0).req.getLsbD 23 = (s.reqLine 23).level) ∧
    (NoChangeWaits t ∧ t.hubHeld = false ∧ t.period ≠ 63) := by unfold NoChangeWaits; decide +kernel

theorem witness_TickAdvancesAndRaisesExpiries :
    let s := { overdueRack with period := 63 }
    NoChangeWaits s ∧ s.hubHeld = false ∧ s.period = 63 := by unfold NoChangeWaits; decide +kernel

/-- Port 3 with its command queue and its window as given. -/
def port3 (commands : List Word) (resetHeld : Bool) : State :=
  rack.setPort 3 { Port.reset with commands := commands, resetHeld := resetHeld }

theorem witness_WindowWritesQueueOrAreIgnored :
    (¬ ResetHeld (port3 [1, 2, 3] false) 3 ∧ ((port3 [1, 2, 3] false).port 3).commands.length < 4) ∧
    (¬ ResetHeld (port3 [1, 2, 3, 4] false) 3 ∧ 4 ≤ ((port3 [1, 2, 3, 4] false).port 3).commands.length) := by
  unfold ResetHeld; decide +kernel

theorem witness_ReplyReadPopsOldestWord :
    let s := rack.setPort 0 { Port.reset with replies := [7] }
    (ReadsOpen s 0 ∧ (s.port 0).replies = [7]) ∧ (ReadsOpen rack 3 ∧ (rack.port 3).replies = []) := by
  unfold ReadsOpen ResetHeld; decide +kernel

theorem witness_HeldWindowIsInoperative :
    ResetHeld (iackChange 3 true (port3 [1] true)) 3 ∧ ResetHeld { rack with hubHeld := true } 3 ∧
    ResetHeld (prstChange 3 true rack) 3 ∧ ResetHeld (hrstChange true rack) 3 ∧
    IackWaits (iackChange 3 true (port3 [1] true)) 3 ∧
    (¬ NoResetWaits (prstChange 3 true rack) ∧ ReadsOpen (prstChange 3 true rack) 0 ∧
      ¬ ResetHeld (prstChange 3 true rack) 0 ∧ ¬ ReleaseWaits (prstChange 3 true rack) 0) ∧
    (prstChange 3 true (offered 5 0 rack)).offer 0 ≠ none ∧
    ¬ NoResetWaits (hrstChange true rack) ∧ ¬ NoResetWaits (hrstChange false rack) ∧
    (ReleaseWaits (iackChange 3 true (prstChange 3 false rack)) 3 ∧
      IackWaits (iackChange 3 true (prstChange 3 false rack)) 3) := by
  unfold ReadsOpen ResetHeld ReleaseWaits IackWaits; and_intros <;> decide +kernel

/-- M0 offered source 31. -/
def offeredRack : State := offered 31 0 (routed 31 7 1 (queued 7 [{ sender := 1, payload := 65535 }] rack))

theorem witness_AckReadTakesTheOffer :
    NoResetWaits offeredRack ∧ ReadsOpen offeredRack 0 ∧
    offeredRack.offer 0 = some { source := 31, expires := some 40, raised := false } ∧
    ReadsOpen offeredRack 3 ∧ offeredRack.offer 3 = none := by
  unfold ReadsOpen ResetHeld; decide +kernel

theorem witness_IackPulseTakesAndReleaseEnds :
    let s := iackChange 0 true offeredRack
    let u := iackChange 3 true rack
    let r := iackChange 3 false rack
    let held := u.setPort 3 { Port.reset with iackHeld := true, ackWord := 5 }
    (¬ ResetHeld s 0 ∧ ¬ ReleaseWaits s 0 ∧ NoResetWaits s ∧ IackWaits s 0 ∧ s.offer 0 ≠ none) ∧
    (¬ ResetHeld u 3 ∧ ¬ ReleaseWaits u 3 ∧ NoResetWaits u ∧ IackWaits u 3 ∧ u.offer 3 = none) ∧
    ((r.iackInput 3).level = false ∧ (r.iackInput 3).change = true) ∧
    (¬ ResetHeld held 3 ∧ (held.iackInput 3).level = true ∧ (held.port 3).iackHeld = true) ∧
    ((u.iackInput 3).level = true ∧ (u.port 3).iackHeld = false) := by
  unfold ResetHeld ReleaseWaits IackWaits; dsimp only; and_intros <;> decide +kernel

/-- A word made by `cmd` is ready when its reply fits and no reset has to be taken first. -/
theorem headReady_cmd (p : Master) (code a b words : Nat) (s : State)
    (h : (s.port p).replies.length + words ≤ 16) (hn : NoResetWaits s) :
    HeadReady (cmd p code a b s) p code a b words :=
  ⟨by simp [cmd], by simpa [cmd] using h, hn⟩

/-- `s` with 16 − `words` reply words waiting at port `p`: the fullest queue in which a reply of `words` fits. -/
def nearlyFull (p : Master) (words : Nat) (s : State) : State :=
  s.setPort p { s.port p with replies := List.replicate (16 - words) 0 }

theorem witness_TakeTakesTheOffer :
    HeadReady (cmd 0 0x1C 0 0 (nearlyFull 0 2 offeredRack)) 0 0x1C 0 0 2 ∧
    ((cmd 0 0x1C 0 0 (nearlyFull 0 2 offeredRack)).ctx 0).portState = .online ∧
    (cmd 0 0x1C 0 0 (nearlyFull 0 2 offeredRack)).offer 0 ≠ none ∧
    HeadReady (cmd 1 0x1C 0 0 offeredRack) 1 0x1C 0 0 2 ∧
    ((cmd 1 0x1C 0 0 offeredRack).ctx 1).portState = .online ∧ (cmd 1 0x1C 0 0 offeredRack).offer 1 = none := by
  unfold HeadReady; decide +kernel

theorem witness_PollTakesTheMostUrgent :
    let s := cmd 0 0x1D 0 0 offeredRack
    let n := cmd 1 0x1D 0 0 offeredRack
    (HeadReady s 0 0x1D 0 0 2 ∧ (s.ctx 0).portState = .online ∧ PollCandidate s 0 31) ∧
    (HeadReady n 1 0x1D 0 0 2 ∧ (n.ctx 1).portState = .online ∧ ∀ src, ¬ PollCandidate n 1 src) := by
  refine ⟨⟨headReady_cmd _ _ _ _ _ _ (by decide +kernel) (by decide +kernel), by decide +kernel,
    .inl (by unfold OwnOffer; decide +kernel)⟩,
    headReady_cmd _ _ _ _ _ _ (by decide +kernel) (by decide +kernel), by decide +kernel, ?_⟩
  have waits : ∀ j, ((cmd 1 0x1D 0 0 offeredRack).tracker j).state ≠ .pending := by decide +kernel
  rintro src (h | h)
  · revert src; unfold OwnOffer; decide +kernel
  · exact waits src h.1

theorem witness_ExpiryAndPassEndTheOffer :
    let raised := offeredRack.setOffer 0 (some { source := 31, expires := some 40, raised := true })
    raised.offer 0 = some { source := 31, expires := some 40, raised := true } ∧ NoResetWaits raised ∧
    offeredRack.offer 0 = some { source := 31, expires := some 40, raised := false } ∧
    HeadReady (cmd 0 0x1B 0 0 (nearlyFull 0 1 offeredRack)) 0 0x1B 0 0 1 ∧
    (offeredRack.ctx 0).portState = .online ∧
    HeadReady (cmd 1 0x1B 0 0 rack) 1 0x1B 0 0 1 ∧ (rack.ctx 1).portState = .online ∧ rack.offer 1 = none := by
  unfold HeadReady; decide +kernel

/-- M1 LEAVING with the one entry of source 31. -/
def leavingRack : State := standing 1 .leaving (served 31 1 (queued 7 [{ sender := 1, payload := 0 }] rack))

/-- The entry of source 31 in `leavingRack`. -/
def lastEntry : Entry :=
  { source := 31, urgency := 0, via := .ack, due := some 100, merged := false, signal := none, raised := false }

theorem witness_DoneCompletesTheNewestEntry :
    (HeadReady (cmd 1 0x1E 0 0 leavingRack) 1 0x1E 0 0 1 ∧ (leavingRack.ctx 1).portState = .leaving ∧
      (leavingRack.ctx 1).stack = [] ++ [lastEntry]) ∧
    (HeadReady (cmd 1 0x1E 0 0 overdueRack) 1 0x1E 0 0 1 ∧ (overdueRack.ctx 1).portState = .online ∧
      ∃ l e, (overdueRack.ctx 1).stack = l ++ [e] ∧ l ≠ [] ∧ ∀ x ∈ l, x.source ≠ e.source) ∧
    (HeadReady (cmd 0 0x1E 0 0 rack) 0 0x1E 0 0 1 ∧ (rack.ctx 0).portState = .online ∧ (rack.ctx 0).stack = []) := by
  refine ⟨(by unfold HeadReady; decide +kernel),
    ⟨headReady_cmd _ _ _ _ _ _ (by decide +kernel) (by decide +kernel), by decide +kernel,
    (overdueRack.ctx 1).stack.take 2, { lastEntry with source := 26, urgency := 1, raised := true }, ?_⟩,
    (by unfold HeadReady; decide +kernel)⟩
  decide +kernel

theorem witness_DoneSrcConsultsStackThenReclaimed :
    (HeadReady (cmd 1 0x1F 31 0 leavingRack) 1 0x1F (31 : Source).val 0 1 ∧
      (leavingRack.ctx 1).portState = .leaving ∧ (leavingRack.ctx 1).stack = [] ++ lastEntry :: []) ∧
    (HeadReady (cmd 1 0x1F 8 0 overdueRack) 1 0x1F (8 : Source).val 0 1 ∧ (overdueRack.ctx 1).portState = .online ∧
      ∃ l e r, (overdueRack.ctx 1).stack = l ++ e :: r ∧ e.source = 8 ∧ l ++ r ≠ [] ∧
        ∀ x ∈ l ++ r, x.source ≠ 8) ∧
    (let s := rack.setCtx 0 { rack.ctx 0 with reclaimed := [0] };
      HeadReady (cmd 0 0x1F 0 0 s) 0 0x1F (0 : Source).val 0 1 ∧ (s.ctx 0).portState = .online ∧
      (∀ e ∈ (s.ctx 0).stack, e.source ≠ 0) ∧ 0 ∈ (s.ctx 0).reclaimed) ∧
    (HeadReady (cmd 0 0x1F 31 0 rack) 0 0x1F (31 : Source).val 0 1 ∧ (rack.ctx 0).portState = .online ∧
      (∀ e ∈ (rack.ctx 0).stack, e.source ≠ 31) ∧ 31 ∉ (rack.ctx 0).reclaimed) := by
  refine ⟨(by unfold HeadReady; decide +kernel),
    ⟨headReady_cmd _ _ _ _ _ _ (by decide +kernel) (by decide +kernel), by decide +kernel,
    (overdueRack.ctx 1).stack.take 1, { lastEntry with source := 8, urgency := 6, raised := true },
    (overdueRack.ctx 1).stack.drop 2, ?_⟩, (by unfold HeadReady; decide +kernel), (by unfold HeadReady; decide +kernel)⟩
  decide +kernel

theorem witness_DeadlineExpiryReclaimsCharged :
    (∃ l e r, (overdueRack.ctx 1).stack = l ++ e :: r ∧ e.source = 8 ∧ (∀ x ∈ l ++ r, x.source ≠ 8) ∧
      e.raised = true ∧ NoResetWaits overdueRack ∧ (overdueRack.ctx 1).portState = .online ∧
      (overdueRack.ctx 1).missCount + 1 ≠ overdueRack.settings.fenceThreshold) ∧
    (let s := overdue 1 (leavingRack.setSettings { leavingRack.settings with fenceThreshold := 1 });
      (s.ctx 1).stack = [] ++ { lastEntry with raised := true } :: [] ∧ NoResetWaits s ∧
      (s.ctx 1).portState = .leaving ∧
      (s.ctx 1).missCount + 1 = s.settings.fenceThreshold) ∧
    (let s := overdue 1 leavingRack;
      (s.ctx 1).stack = [] ++ { lastEntry with raised := true } :: [] ∧ NoResetWaits s ∧
      (s.ctx 1).portState = .leaving ∧
      (s.ctx 1).missCount + 1 ≠ s.settings.fenceThreshold) ∧
    (∀ e ∈ (leavingRack.ctx 1).stack, e.source = 31 → e.raised = false) := by
  refine ⟨⟨(overdueRack.ctx 1).stack.take 1, { lastEntry with source := 8, urgency := 6, raised := true },
    (overdueRack.ctx 1).stack.drop 2, ?_⟩, by decide +kernel, by decide +kernel, by decide +kernel⟩
  decide +kernel

theorem witness_JoinAdmitsAnOfflineMaster :
    HeadReady (cmd 3 0x01 0 0 (nearlyFull 3 1 rack)) 3 0x01 0 0 1 ∧ (rack.ctx 3).portState = .offline ∧
    HeadReady (cmd 0 0x01 0 0 rack) 0 0x01 0 0 1 ∧ (rack.ctx 0).portState = .online := by
  unfold HeadReady; decide +kernel

theorem witness_LeaveEndsOrBeginsTheLeaving :
    HeadReady (cmd 0 0x02 0 0 offeredRack) 0 0x02 0 0 1 ∧ (offeredRack.ctx 0).portState = .online ∧
    (offeredRack.ctx 0).stack = [] ∧
    HeadReady (cmd 1 0x02 0 0 overdueRack) 1 0x02 0 0 1 ∧ (overdueRack.ctx 1).portState = .online ∧
    (overdueRack.ctx 1).stack ≠ [] := by
  unfold HeadReady; decide +kernel

theorem witness_FenceAndUnfenceMoveAMaster :
    HeadReady (cmd 0 0x03 0 0 rack) 0 0x03 (0 : Master).val 0 1 ∧ (rack.ctx 0).portState = .online ∧
    HeadReady (cmd 0 0x03 3 0 rack) 0 0x03 (3 : Master).val 0 1 ∧ (rack.ctx 3).portState = .offline ∧
    HeadReady (cmd 0 0x03 1 0 leavingRack) 0 0x03 (1 : Master).val 0 1 ∧ (leavingRack.ctx 0).portState = .online ∧
    (leavingRack.ctx 1).portState = .leaving ∧
    HeadReady (cmd 0 0x03 1 0 overdueRack) 0 0x03 (1 : Master).val 0 1 ∧ (overdueRack.ctx 1).portState = .online ∧
    (let s := standing 3 .fenced rack;
      HeadReady (cmd 0 0x04 3 0 s) 0 0x04 (3 : Master).val 0 1 ∧ (s.ctx 0).portState = .online ∧
      (s.ctx 3).portState = .fenced) ∧
    HeadReady (cmd 0 0x04 0 0 rack) 0 0x04 (0 : Master).val 0 1 ∧ (rack.ctx 0).portState ≠ .fenced := by
  unfold HeadReady; decide +kernel

theorem witness_MaskUnmaskThreshSetTheCaller :
    (offeredRack.ctx 0).portState = .online ∧
    HeadReady (cmd 0 0x05 31 0 offeredRack) 0 0x05 (31 : Source).val 0 1 ∧ OwnOffer (cmd 0 0x05 31 0 offeredRack) 0 31 ∧
    HeadReady (cmd 0 0x05 0 0 offeredRack) 0 0x05 (0 : Source).val 0 1 ∧
    ¬ OwnOffer (cmd 0 0x05 0 0 offeredRack) 0 0 ∧
    HeadReady (cmd 0 0x06 31 0 offeredRack) 0 0x06 (31 : Source).val 0 1 ∧
    HeadReady (cmd 0 0x07 8 0 offeredRack) 0 0x07 (8 : Fin 9).val 0 1 ∧
    offeredRack.offer 0 = some { source := 31, expires := some 40, raised := false } ∧
    (offeredRack.route 31).urgency.val < (8 : Fin 9).val ∧
    HeadReady (cmd 0 0x07 7 0 offeredRack) 0 0x07 (7 : Fin 9).val 0 1 ∧
    (7 : Fin 9).val ≤ (offeredRack.route 31).urgency.val := by
  unfold HeadReady OwnOffer; decide +kernel

theorem witness_ModeCommandsSetTheCaller :
    (rack.ctx 0).portState = .online ∧ (rack.ctx 0).stack = [] ∧ (overdueRack.ctx 1).portState = .online ∧
    (overdueRack.ctx 1).stack ≠ [] ∧ offeredRack.offer 0 ≠ none ∧ rack.offer 0 = none ∧
    HeadReady (cmd 0 0x08 0 0 rack) 0 0x08 0 0 1 ∧ HeadReady (cmd 1 0x08 0 0 overdueRack) 1 0x08 0 0 1 ∧
    HeadReady (cmd 0 0x09 0 0 rack) 0 0x09 0 0 1 ∧ HeadReady (cmd 1 0x09 0 0 overdueRack) 1 0x09 0 0 1 ∧
    HeadReady (cmd 0 0x0A 0 0 offeredRack) 0 0x0A 0 0 1 ∧ HeadReady (cmd 0 0x0A 0 0 rack) 0 0x0A 0 0 1 ∧
    HeadReady (cmd 0 0x0B 0 0 rack) 0 0x0B 0 0 1 := by
  unfold HeadReady; decide +kernel

/-- M0 the one master online. -/
def soleRack : State := joined 0 State.reset

/-- The hypotheses of the SETCLASS clauses. -/
theorem witness_HubSettingsNeedTheSoleMember_setClass :
    (soleRack.ctx 0).portState = .online ∧ SoleMember (cmd 0 0x0C 1 65535 soleRack) 0 ∧
    HeadReady (cmd 0 0x0C 1 65535 soleRack) 0 0x0C 1 (65535 : BitVec 16).toNat 1 ∧ (65535 : BitVec 16) ≠ 0 ∧
    SoleMember (cmd 0 0x0C 2 1 soleRack) 0 ∧ HeadReady (cmd 0 0x0C 2 1 soleRack) 0 0x0C 2 (1 : BitVec 16).toNat 1 ∧
    SoleMember (cmd 0 0x0C 3 1 soleRack) 0 ∧ HeadReady (cmd 0 0x0C 3 1 soleRack) 0 0x0C 3 (1 : BitVec 16).toNat 1 ∧
    HeadReady (cmd 0 0x0C 3 1 rack) 0 0x0C 3 (1 : BitVec 16).toNat 1 ∧ ¬ SoleMember (cmd 0 0x0C 3 1 rack) 0 := by
  unfold HeadReady SoleMember; and_intros <;> decide +kernel

/-- The hypotheses of the SETOFFER and SETFENCE clauses. -/
theorem witness_HubSettingsNeedTheSoleMember :
    HeadReady (cmd 0 0x0D 255 0 soleRack) 0 0x0D (255 : BitVec 8).toNat 0 1 ∧ SoleMember (cmd 0 0x0D 255 0 soleRack) 0 ∧
    HeadReady (cmd 0 0x0D 0 0 rack) 0 0x0D (0 : BitVec 8).toNat 0 1 ∧ ¬ SoleMember (cmd 0 0x0D 0 0 rack) 0 ∧
    HeadReady (cmd 0 0x0E 7 0 soleRack) 0 0x0E 7 0 1 ∧ SoleMember (cmd 0 0x0E 7 0 soleRack) 0 ∧
    HeadReady (cmd 0 0x0E 1 0 rack) 0 0x0E 1 0 1 ∧ ¬ SoleMember (cmd 0 0x0E 1 0 rack) 0 := by
  unfold HeadReady SoleMember; decide +kernel

/-- Route 31 bound by M0. -/
def boundRack : State := rack.setRoute 31 { rack.route 31 with binder := some 0 }

theorem witness_BindUnbindHeirChangeTheBinding :
    (rack.ctx 0).portState = .online ∧ (boundRack.ctx 1).portState = .online ∧
    HeadReady (cmd 0 0x0F 0 0 rack) 0 0x0F (0 : Source).val 0 1 ∧ (rack.route 0).binder = none ∧
    HeadReady (cmd 0 0x0F 31 0 boundRack) 0 0x0F (31 : Source).val 0 1 ∧ (boundRack.route 31).binder = some 0 ∧
    HeadReady (cmd 1 0x0F 31 0 boundRack) 1 0x0F (31 : Source).val 0 1 ∧ (0 : Master) ≠ 1 ∧
    HeadReady (cmd 0 0x10 31 0 boundRack) 0 0x10 (31 : Source).val 0 1 ∧
    HeadReady (cmd 0 0x11 31 0 boundRack) 0 0x11 (31 : Source).val (0 : Master).val 1 ∧
    HeadReady (cmd 0 0x11 31 3 boundRack) 0 0x11 (31 : Source).val (3 : Master).val 1 ∧
    HeadReady (cmd 0 0x11 31 4 boundRack) 0 0x11 (31 : Source).val 4 1 := by
  unfold HeadReady; decide +kernel

theorem witness_RouteReplacesTargetsAndPolicy :
    (HeadReady (cmd 0 0x12 31 0x2E offeredRack) 0 0x12 (31 : Source).val
      ((14 : MasterSet).toNat + 16 * 2) 1 ∧ (offeredRack.ctx 0).portState = .online ∧
      MayConfigure (cmd 0 0x12 31 0x2E offeredRack) 0 31 ∧ stateOf 31 offeredRack = .offered ∧
      (offeredRack.tracker 31).holder = some 0 ∧ setHas (14 : MasterSet) 0 = false) ∧
    (HeadReady (cmd 0 0x12 31 0 boundRack) 0 0x12 (31 : Source).val ((0 : MasterSet).toNat + 16 * 0)
      1 ∧ (boundRack.ctx 0).portState = .online ∧ MayConfigure (cmd 0 0x12 31 0 boundRack) 0 31 ∧
      stateOf 31 boundRack ≠ .offered) ∧
    (HeadReady (cmd 0 0x12 31 0x11 offeredRack) 0 0x12 (31 : Source).val
      ((1 : MasterSet).toNat + 16 * 1) 1 ∧ setHas (1 : MasterSet) 0 = true) := by
  unfold HeadReady MayConfigure; decide +kernel

theorem witness_UrgeReplacesTheUrgency :
    (HeadReady (cmd 0 0x13 31 7 offeredRack) 0 0x13 (31 : Source).val (7 : Urgency).val 1 ∧
      (offeredRack.ctx 0).portState = .online ∧ MayConfigure (cmd 0 0x13 31 7 offeredRack) 0 31 ∧
      (offeredRack.tracker 31).holder = some 0 ∧ UrgencySuits 7 (offeredRack.ctx 0)) ∧
    (let s := offeredRack.setCtx 0 { offeredRack.ctx 0 with threshold := 1 };
      HeadReady (cmd 0 0x13 31 0 s) 0 0x13 (31 : Source).val (0 : Urgency).val 1 ∧
      MayConfigure (cmd 0 0x13 31 0 s) 0 31 ∧ stateOf 31 s = .offered ∧ (s.tracker 31).holder = some 0 ∧
      ¬ UrgencySuits 0 (s.ctx 0)) ∧
    (HeadReady (cmd 0 0x13 0 0 rack) 0 0x13 (0 : Source).val (0 : Urgency).val 1 ∧
      MayConfigure (cmd 0 0x13 0 0 rack) 0 0 ∧ stateOf 0 rack ≠ .offered) := by
  refine ⟨⟨headReady_cmd _ _ _ _ _ _ (by decide +kernel) (by decide +kernel), by decide +kernel,
    (by unfold MayConfigure; decide +kernel),
      by decide +kernel, by decide +kernel, fun _ e h => ?_⟩,
    ⟨headReady_cmd _ _ _ _ _ _ (by decide +kernel) (by decide +kernel), (by unfold MayConfigure; decide +kernel), by decide +kernel,
      by decide +kernel, fun h => ?_⟩, (by unfold HeadReady MayConfigure; decide +kernel)⟩
  · have : (offeredRack.ctx 0).stack.getLast? = none := by decide +kernel
    rw [this] at h; cases h
  · exact absurd h.1 (by decide +kernel)

theorem witness_TrigRecomputesThePendingState :
    let high := rack.setTracker 23 { rack.tracker 23 with line := true }
    let pending := high.setTracker 23 { high.tracker 23 with state := .pending }
    let auto := rack.setRoute 23 { rack.route 23 with autodone := true }
    (rack.ctx 0).portState = .online ∧ MayConfigure (cmd 0 0x14 23 0 rack) 0 (lineSource 23) ∧
    HeadReady (cmd 0 0x14 23 0 rack) 0 0x14 (lineSource 23).val 0 1 ∧ stateOf (lineSource 23) rack = .idle ∧
    (rack.route (lineSource 23)).enabled = false ∧
    HeadReady (cmd 0 0x14 20 0 chainRack) 0 0x14 (lineSource 20).val 0 1 ∧
    (chainRack.route (lineSource 20)).enabled = true ∧
    HeadReady (cmd 0 0x14 20 1 chainRack) 0 0x14 (lineSource 20).val 1 1 ∧
    HeadReady (cmd 0 0x14 23 1 auto) 0 0x14 (lineSource 23).val 1 1 ∧
    (auto.route (lineSource 23)).autodone = true ∧ stateOf (lineSource 23) auto = .idle ∧
    HeadReady (cmd 0 0x14 23 1 rack) 0 0x14 (lineSource 23).val 1 1 ∧
    (rack.route (lineSource 23)).autodone = false ∧ (rack.tracker (lineSource 23)).line = false ∧
    HeadReady (cmd 0 0x14 23 1 pending) 0 0x14 (lineSource 23).val 1 1 ∧
    (pending.route (lineSource 23)).autodone = false ∧ (pending.tracker (lineSource 23)).line = true ∧
    stateOf (lineSource 23) pending = .pending ∧
    HeadReady (cmd 0 0x14 23 1 high) 0 0x14 (lineSource 23).val 1 1 ∧
    (high.tracker (lineSource 23)).line = true ∧ stateOf (lineSource 23) high = .idle := by
  unfold HeadReady MayConfigure; dsimp only; and_intros <;> decide +kernel

theorem witness_AutoAndLimitSetTheRoute :
    (rack.ctx 0).portState = .online ∧ MayConfigure rack 0 31 ∧ MayConfigure boundRack 0 31 ∧
    HeadReady (cmd 0 0x15 31 0 rack) 0 0x15 (31 : Source).val 0 1 ∧ stateOf 31 rack ≠ .inService ∧
    HeadReady (cmd 0 0x15 31 0 leavingRack) 0 0x15 (31 : Source).val 0 1 ∧ stateOf 31 leavingRack = .inService ∧
    HeadReady (cmd 0 0x15 31 1 leavingRack) 0 0x15 (31 : Source).val 1 1 ∧
    HeadReady (cmd 0 0x15 0 1 (levelled 0 rack)) 0 0x15 (0 : Source).val 1 1 ∧
    ((levelled 0 rack).route 0).trigger = .level ∧ stateOf 0 (levelled 0 rack) ≠ .inService ∧
    HeadReady (cmd 0 0x15 31 1 rack) 0 0x15 (31 : Source).val 1 1 ∧ (rack.route 31).trigger = .edge ∧
    HeadReady (cmd 0 0x16 31 3 rack) 0 0x16 (31 : Source).val (3 : Fin 4).val 1 := by
  unfold HeadReady MayConfigure; decide +kernel

theorem witness_EnableAndDisableSetTheRoute :
    (rack.ctx 0).portState = .online ∧ MayConfigure rack 0 0 ∧ MayConfigure offeredRack 0 31 ∧
    HeadReady (cmd 0 0x17 0 0 rack) 0 0x17 (0 : Source).val 0 1 ∧
    HeadReady (cmd 0 0x18 31 0 offeredRack) 0 0x18 (31 : Source).val 0 1 ∧ stateOf 31 offeredRack = .offered ∧
    (offeredRack.tracker 31).holder = some 0 ∧
    HeadReady (cmd 0 0x18 0 0 rack) 0 0x18 (0 : Source).val 0 1 ∧ stateOf 0 rack ≠ .offered := by
  unfold HeadReady MayConfigure; decide +kernel

theorem witness_ConfigurationNeedsTheBinder :
    let s := cmd 1 0x19 7 0 (nearlyFull 1 1 boundRack)
    let u := cmd 0 0x11 0 4 rack
    (Code.flush ∈ configurationCodes ∧ (s.port 1).commands.head? = some 0x19070000 ∧
      codeField 0x19070000 = codeByte .flush ∧ operandsOk .flush (operandA 0x19070000) (operandB 0x19070000) = true ∧
      (s.port 1).replies.length + 1 ≤ 16 ∧ NoResetWaits s ∧ (s.ctx 1).portState = .online ∧
      (s.route (signalSource (signalOf (operandA 0x19070000)))).binder = some 0) ∧
    (Code.heir ∈ configurationCodes ∧ (u.port 0).commands.head? = some 0x11000004 ∧
      codeField 0x11000004 = codeByte .heir ∧ operandsOk .heir (operandA 0x11000004) (operandB 0x11000004) = true ∧
      (u.port 0).replies.length + 1 ≤ 16 ∧ NoResetWaits u ∧ (u.ctx 0).portState = .online ∧
      (u.route (sourceOf (operandA 0x11000004))).binder = none) := by decide +kernel

theorem witness_RaiseAppendsASignal :
    let three := queued 7 [⟨0, 0⟩, ⟨0, 0⟩, ⟨0, 0⟩] (offered 31 1 rack)
    let full := queued 7 [⟨0, 0⟩, ⟨0, 0⟩, ⟨0, 0⟩, ⟨0, 0⟩] (offered 31 1 rack)
    (HeadReady (cmd 0 0x1A 7 65535 rack) 0 0x1A (7 : SignalIndex).val (65535 : Payload).toNat 1 ∧
      (rack.ctx 0).portState = .online ∧ (rack.queue 7).length < 4 ∧ stateOf (signalSource 7) rack = .idle) ∧
    (HeadReady (cmd 0 0x1A 7 0 three) 0 0x1A (7 : SignalIndex).val (0 : Payload).toNat 1 ∧
      (three.ctx 0).portState = .online ∧ (three.queue 7).length < 4 ∧ stateOf (signalSource 7) three ≠ .idle) ∧
    (HeadReady (cmd 0 0x1A 7 0 full) 0 0x1A (7 : SignalIndex).val (0 : Payload).toNat 1 ∧
      (full.ctx 0).portState = .online ∧ 4 ≤ (full.queue 7).length) := by
  unfold HeadReady; decide +kernel

theorem witness_FlushActsByState :
    let pending := rack.setTracker 24 { rack.tracker 24 with state := .pending }
    (rack.ctx 0).portState = .online ∧ MayConfigure rack 0 (signalSource 0) ∧
    HeadReady (cmd 0 0x19 0 0 rack) 0 0x19 (0 : SignalIndex).val 0 1 ∧ stateOf (signalSource 0) rack = .idle ∧
    HeadReady (cmd 0 0x19 0 0 pending) 0 0x19 (0 : SignalIndex).val 0 1 ∧
    stateOf (signalSource 0) pending = .pending ∧
    HeadReady (cmd 0 0x19 7 0 offeredRack) 0 0x19 (7 : SignalIndex).val 0 1 ∧
    MayConfigure offeredRack 0 (signalSource 7) ∧ stateOf (signalSource 7) offeredRack = .offered ∧
    HeadReady (cmd 0 0x19 7 0 leavingRack) 0 0x19 (7 : SignalIndex).val 0 1 ∧
    stateOf (signalSource 7) leavingRack = .inService := by
  unfold HeadReady MayConfigure; decide +kernel

theorem witness_QueriesAnswerAndChangeNothing :
    HeadReady (cmd 3 0x20 3 0 (nearlyFull 3 3 rack)) 3 0x20 (3 : Master).val 0 3 ∧
    HeadReady (cmd 3 0x21 3 7 (nearlyFull 3 9 rack)) 3 0x21 (3 : Master).val (7 : Fin 8).val 9 ∧
    HeadReady (cmd 3 0x22 31 0 (nearlyFull 3 2 rack)) 3 0x22 (31 : Source).val 0 2 ∧
    HeadReady (cmd 3 0x23 31 0 (nearlyFull 3 2 rack)) 3 0x23 (31 : Source).val 0 2 ∧
    HeadReady (cmd 3 0x24 7 0 (nearlyFull 3 6 rack)) 3 0x24 (7 : SignalIndex).val 0 6 ∧
    HeadReady (cmd 3 0x25 0 0 (nearlyFull 3 2 rack)) 3 0x25 0 0 2 := by
  unfold HeadReady; decide +kernel

theorem witness_NoticeReturnsTheOldest :
    let s := rack.setPort 0 { Port.reset with notices := [.left 3] }
    HeadReady (cmd 0 0x26 0 0 s) 0 0x26 0 0 2 ∧ ((cmd 0 0x26 0 0 s).port 0).notices = [.left 3] ∧
    HeadReady (cmd 3 0x26 0 0 rack) 3 0x26 0 0 2 ∧ ((cmd 3 0x26 0 0 rack).port 3).notices = [] := by
  unfold HeadReady; decide +kernel

/-- The context of M1 in `overdueRack`, with the fullest counts its word can carry. -/
def fullContext : Context :=
  { overdueRack.ctx 1 with
    missCount := 7, reclaimed := [0, 1, 2, 3, 4, 5, 6, 7], stack := List.replicate 8 lastEntry }

theorem witness_QueryWordBits :
    fullContext.reclaimed.length ≤ 8 ∧ fullContext.stack.length ≤ 8 ∧ fullContext.missCount ≤ 7 ∧
    (List.replicate 4 ({ sender := 3, payload := 0 } : Signal)).length ≤ 4 := by decide +kernel

theorem witness_HeaderAndTakeWordBits : (8 : Nat) ≤ 8 := by decide

theorem witness_PortStatusWordBits :
    let q : Port := { Port.reset with
      commands := List.replicate 4 0, replies := List.replicate 16 0, notices := List.replicate 8 (.left 0) }
    let s := rack.setPort 3 q
    (ReadsOpen s 3 ∧ (s.port 3).notices.length ≤ 8 ∧ (s.port 3).replies.length ≤ 16 ∧
      (s.port 3).commands.length ≤ 4) ∧
    ResetHeld (port3 [] true) 3 ∧
    (ReadsOpen rack 3 ∧ (rack.port 3).commands = [] ∧ (rack.port 3).replies = [] ∧ (rack.port 3).notices = [] ∧
      (rack.port 3).overrun = false ∧ (rack.ctx 3).portState = .offline ∧ rack.offer 3 = none) := by
  unfold ReadsOpen ResetHeld; decide +kernel

theorem witness_RefusalsChangeOnlyTheReply :
    let undefined := cmd 0 0x27 255 65535 (nearlyFull 0 1 rack)
    let zero := cmd 0 0 0 0 rack
    let bad := cmd 0 0x21 4 0 (nearlyFull 0 9 rack)
    let off := cmd 3 0x1C 0 0 (nearlyFull 3 2 rack)
    let leaving := cmd 1 0x1C 0 0 leavingRack
    let fenced := cmd 3 0x1E 0 0 (standing 3 .fenced rack)
    ((undefined.port 0).commands.head? = some 0x27FFFFFF ∧ (0x26 : BitVec 8) < codeField 0x27FFFFFF ∧
      (undefined.port 0).replies.length + 1 ≤ 16) ∧
    ((zero.port 0).commands.head? = some 0 ∧ codeField 0 = 0) ∧
    ((bad.port 0).commands.head? = some 0x21040000 ∧ codeField 0x21040000 = codeByte .readStack ∧
      (bad.port 0).replies.length + reservedWords .readStack ≤ 16 ∧
      operandsOk .readStack (operandA 0x21040000) (operandB 0x21040000) = false) ∧
    ((off.port 3).commands.head? = some 0x1C000000 ∧ codeField 0x1C000000 = codeByte .take ∧
      (off.port 3).replies.length + reservedWords .take ≤ 16 ∧
      operandsOk .take (operandA 0x1C000000) (operandB 0x1C000000) = true ∧ (off.ctx 3).portState = .offline ∧
      Code.take ≠ .join ∧ Code.take ∉ queryCodes) ∧
    ((leaving.port 1).commands.head? = some 0x1C000000 ∧ (leaving.ctx 1).portState = .leaving ∧
      Code.take ≠ .done ∧ Code.take ≠ .doneSrc) ∧
    ((fenced.port 3).commands.head? = some 0x1E000000 ∧ codeField 0x1E000000 = codeByte .done ∧
      operandsOk .done (operandA 0x1E000000) (operandB 0x1E000000) = true ∧ (fenced.ctx 3).portState = .fenced ∧
      Code.done ∉ queryCodes) ∧
    (NoResetWaits undefined ∧ NoResetWaits zero ∧ NoResetWaits bad ∧ NoResetWaits off ∧ NoResetWaits leaving ∧
      NoResetWaits fenced) := by
  dsimp only; and_intros <;> decide +kernel

theorem witness_HeadExecutesWithinItsReservation :
    SignalQueuesBounded rack ∧
    16 < ((nearlyFull 0 8 rack).port 0).replies.length + 9 ∧
    ((cmd 0 0x21 0 0 (nearlyFull 0 9 rack)).port 0).commands.head? = some 0x21000000 ∧
    codeField 0x21000000 = codeByte .readStack ∧ ((nearlyFull 0 9 rack).port 0).replies.length + 9 ≤ 16 ∧
    NoResetWaits (cmd 0 0x21 0 0 (nearlyFull 0 9 rack)) ∧
    16 < ((nearlyFull 0 0 rack).port 0).replies.length + 1 := by
  unfold SignalQueuesBounded; decide +kernel

/-! Invariants on a state in which sources are offered, in service, pending and reclaimed -/

/-- M0 holds the offer of source 31; M1 holds source 27 in service and lost source 4, which waits. -/
def busyRack : State :=
  let s := queued 3 [{ sender := 1, payload := 10 }] (routed 27 4 3 offeredRack)
  let s := served 27 1 s
  let s := s.setTracker 4 { s.tracker 4 with state := .pending, passSet := 2 }
  let s := s.setCtx 1 { s.ctx 1 with reclaimed := [4], missCount := 1 }
  s.setRoute 14 { s.route 14 with binder := some 1, heir := some 3 }

/-- Offers and trackers match when they do at each master and each source. -/
theorem offersMatch_of {s : State}
    (h : ∀ m, ∀ o ∈ (s.offer m).toList,
      (s.tracker o.source).state = .offered ∧ (s.tracker o.source).holder = some m)
    (k : ∀ src, (s.tracker src).state = .offered →
      ∃ m, (s.tracker src).holder = some m ∧ (s.offer m).map (·.source) = some src) : OffersMatch s := by
  refine ⟨fun m o ho => h m o (by rw [ho]; exact List.mem_singleton.2 rfl), fun src hs => ?_⟩
  · obtain ⟨m, hm, ho⟩ := k src hs
    obtain ⟨o, h1, h2⟩ := Option.map_eq_some_iff.1 ho
    exact ⟨m, o, hm, h1, h2⟩

theorem busyRack_offersMatch : OffersMatch busyRack := offersMatch_of (by decide +kernel) (by decide +kernel)

theorem busyRack_noneWaits : NoneWaitsBeforeFreeSlot busyRack := by
  intro src m h
  have : ∀ j, offerable busyRack j = false := by decide +kernel
  rw [this src] at h
  cases h

theorem busyRack_binders : BindersPresent busyRack := by unfold BindersPresent; decide +kernel

theorem busyRack_stacksMatch : StacksMatch busyRack := by
  refine ⟨?_, ?_, ?_⟩ <;> decide +kernel

/-- The hypotheses of EveryStepKeepsConsistent, and of every statement whose hypotheses are among the invariants. -/
theorem witness_EveryStepKeepsConsistent :
    Consistent busyRack ∧ step (busyRack.withPending [.ackRead 0]) ≠ .next busyRack := by
  refine ⟨?_, fun h => ?_⟩
  · exact
      { portQueues := by unfold PortQueuesBounded; decide +kernel
        signalQueues := by unfold SignalQueuesBounded; decide +kernel
        reclaimedSize := by unfold ReclaimedBounded; decide +kernel
        holders := by unfold HolderPresent; decide +kernel
        binders := busyRack_binders
        offersOnline := by unfold OffersOnline; decide +kernel
        awayStack := by unfold AwayStackEmpty; decide +kernel
        offlineCleared := by unfold OfflineCleared; decide +kernel
        offersMatch := busyRack_offersMatch
        stacksMatch := busyRack_stacksMatch
        signalIdle := by unfold SignalIdleIffEmpty; decide +kernel
        flags := by unfold FlagsRegular; decide +kernel
        routes := by unfold RoutesRegular; decide +kernel
        reclaimedApart := by unfold ReclaimedApart; decide +kernel
        misses := by unfold MissesBelowThreshold; decide +kernel
        offersQualify := by unfold OffersQualify; decide +kernel
        nested := by unfold NestedRising; decide +kernel
        stackSize := by unfold StacksBounded; decide +kernel
        noneWaits := busyRack_noneWaits
        heldPorts := by unfold HeldPortCleared; decide +kernel
        inputsFollowed := by unfold InputsFollowed; decide +kernel }
  · have := congrArg (fun o => (after o).offer 0) h
    revert this
    decide +kernel

theorem witness_EveryStepKeepsOffersAndStacksMatched :
    HolderPresent busyRack ∧ OffersMatch busyRack ∧ StacksMatch busyRack :=
  ⟨(by unfold HolderPresent; decide +kernel), busyRack_offersMatch, busyRack_stacksMatch⟩

theorem witness_EveryStepKeepsQueuesBounded :
    let s := queued 7 [⟨0, 0⟩, ⟨0, 0⟩, ⟨0, 0⟩, ⟨0, 0⟩] (nearlyFull 0 0 (port3 [1, 2, 3, 4] false))
    PortQueuesBounded s ∧ SignalQueuesBounded s := by
  unfold PortQueuesBounded SignalQueuesBounded; decide +kernel

theorem witness_EveryStepKeepsBindersPresent : BindersPresent busyRack := busyRack_binders

theorem witness_EveryStepKeepsAwayMastersCleared :
    MissesBelowThreshold busyRack ∧ AwayStackEmpty busyRack ∧ OfflineCleared busyRack ∧ OffersOnline busyRack := by
  unfold MissesBelowThreshold AwayStackEmpty OfflineCleared OffersOnline; decide +kernel

theorem witness_PassLeavesNoFreeSlotWaiting : OffersMatch busyRack := busyRack_offersMatch

theorem witness_PassKeepsOrReplacesStandingOffers :
    busyRack.offer 0 = some { source := 31, expires := some 40, raised := false } ∧ (busyRack.route 31).enabled = true ∧
    eligible busyRack 31 0 = true := by decide +kernel

theorem witness_ConsiderationPlacesTheSource :
    let s := routed 3 5 2 (rack.setTracker 3 { rack.tracker 3 with state := .pending, passSet := 2 })
    offerable s 3 = true ∧ passSetCovers s 3 = true ∧ preference s 3 = [] ∧
    preference (s.setTracker 3 { s.tracker 3 with passSet := 0 }) 3 = [1] := by decide +kernel

theorem witness_OnlyItsOwnCommandsSetAMaster :
    exec (.mask 1) rack = .next (after (exec (.mask 1) rack)) ∧
    Instr.mask 1 ∉ [.mask 0, .unmask 0, .thresh 0, .nest 0, .openMode 0, .quiet 0, .loud 0, .portReset 0,
      .hubReset] := ⟨rfl, by decide⟩

end Sys2Proof.Tests
end

/-! PROOFS. RISE and FALL of a request line (R9, R10): the tracker record at each event, by the state it finds; the
operation that takes the event; the row. -/

namespace Sys2Proof.Machine

open Sys2Proof.Safety

/-! The tracker record at an edge event and at an assert event -/

section
variable {t : Tracker}

theorem Tracker.edgeEvent_of_idle (h : t.state = .idle) : t.edgeEvent = { t with state := .pending } := by
  simp [Tracker.edgeEvent, h]

theorem Tracker.edgeEvent_of_waiting (h : t.state = .pending ∨ t.state = .offered) :
    t.edgeEvent = { t with merged := true } := by
  rcases h with h | h <;> simp [Tracker.edgeEvent, h]

theorem Tracker.edgeEvent_of_inService (h : t.state = .inService) (ha : t.again = false) :
    t.edgeEvent = { t with again := true } := by
  simp [Tracker.edgeEvent, h, ha]

theorem Tracker.edgeEvent_of_inService_again (h : t.state = .inService) (ha : t.again = true) :
    t.edgeEvent = { t with merged := true } := by
  simp [Tracker.edgeEvent, h, ha]

theorem Tracker.assertEvent_of_idle (h : t.state = .idle) : t.assertEvent = { t with state := .pending } := by
  simp [Tracker.assertEvent, h]

theorem Tracker.assertEvent_of_ne_idle (h : t.state ≠ .idle) : t.assertEvent = t := by
  cases hs : t.state with
  | idle => exact absurd hs h
  | pending | offered | inService => simp [Tracker.assertEvent, hs]

end

/-! A rise and a fall at the tracker of a source -/

section
variable {src : Source} {s : State}

/-- From IDLE a rise acts alike under either trigger: the source becomes PENDING and a pass starts (R9, R10, R69). -/
theorem riseEvent_of_idle (h : (s.tracker src).state = .idle) :
    riseEvent src s =
      dispatchPass (s.setTracker src { s.tracker src with line := true, state := .pending }) := by
  have hl : ((s.tracker src).setLine true).state = .idle := h
  unfold riseEvent
  rw [if_pos h, updTracker_eq]
  cases (s.route src).trigger with
  | edge => exact congrArg (dispatchPass <| s.setTracker src ·) (Tracker.edgeEvent_of_idle hl)
  | level => exact congrArg (dispatchPass <| s.setTracker src ·) (Tracker.assertEvent_of_idle hl)

theorem riseEvent_edge_of_ne_idle (he : (s.route src).trigger = .edge) (h : (s.tracker src).state ≠ .idle) :
    riseEvent src s = s.setTracker src ((s.tracker src).setLine true).edgeEvent := by
  simp [riseEvent, he, h]

theorem riseEvent_level_of_ne_idle (he : (s.route src).trigger = .level) (h : (s.tracker src).state ≠ .idle) :
    riseEvent src s = s.setTracker src { s.tracker src with line := true } := by
  have hl : ((s.tracker src).setLine true).state ≠ .idle := h
  simp only [riseEvent, he, h, if_false, updTracker_eq, Tracker.assertEvent_of_ne_idle hl]
  rfl

theorem fallEvent_edge (he : (s.route src).trigger = .edge) :
    fallEvent src s = s.setTracker src { s.tracker src with line := false } := by
  simp [fallEvent, he, Tracker.setLine]

end

/-! The rows, and the statements -/

section
variable {n : Line} {s : State}

/-- A recognised rise, no reset to be taken before it, is taken at the tracker (R3, log 22). -/
theorem exec_rise_of_waits (hn : NoResetWaits s) (hl : (s.reqLine n).level = true) (hc : (s.reqLine n).change = true) :
    exec (.rise n) s = .next (riseEvent (lineSource n) (takeLineChange n s)) := by
  simp [exec, execRise, Sampler.waiting, (resetWaits_eq_false s).2 hn, hl, hc]

/-- A recognised fall, no reset to be taken before it, is taken at the tracker (R3, log 22). -/
theorem exec_fall_of_waits (hn : NoResetWaits s) (hl : (s.reqLine n).level = false)
    (hc : (s.reqLine n).change = true) :
    exec (.fall n) s = .next (fallEvent (lineSource n) (takeLineChange n s)) := by
  simp [exec, execFall, Sampler.waiting, (resetWaits_eq_false s).2 hn, hl, hc]

/-- The source leaves IDLE under either trigger (R9, R10). -/
theorem exec_rise_of_idle (hn : NoResetWaits s) (hl : (s.reqLine n).level = true) (hc : (s.reqLine n).change = true)
    (h : (s.tracker (lineSource n)).state = .idle) :
    exec (.rise n) s = .next (dispatchPass ((takeLineChange n s).setTracker (lineSource n)
      { s.tracker (lineSource n) with line := true, state := .pending })) := by
  rw [exec_rise_of_waits hn hl hc]
  exact congrArg _ (riseEvent_of_idle (s := takeLineChange n s) h)

/-- A source found offIdle IDLE takes the edge event on its record, with the line field high, and no pass starts
(R9). -/
theorem exec_rise_edge_of_ne_idle (hn : NoResetWaits s) (hl : (s.reqLine n).level = true)
    (hc : (s.reqLine n).change = true) (he : (s.route (lineSource n)).trigger = .edge)
    (h : (s.tracker (lineSource n)).state ≠ .idle) :
    exec (.rise n) s = .next ((takeLineChange n s).setTracker (lineSource n)
      ((s.tracker (lineSource n)).setLine true).edgeEvent) := by
  rw [exec_rise_of_waits hn hl hc]
  exact congrArg _ (riseEvent_edge_of_ne_idle (s := takeLineChange n s) he h)

end

/-- Settles O9, by the state the edge event finds: from IDLE a pass starts, and elsewhere the event writes the
tracker record alone. -/
theorem edgeEventActsByState : Obligations.EdgeEventActsByState := by
  unfold Obligations.EdgeEventActsByState
  intro n s hn hl hc he src t taken
  have offIdle (h : t.state ≠ .idle) :
      exec (.rise n) s = .next (taken.setTracker src (t.setLine true).edgeEvent) :=
    exec_rise_edge_of_ne_idle hn hl hc he h
  refine ⟨exec_rise_of_idle hn hl hc, fun h => ?waiting, fun h ha => ?first, fun h ha => ?second⟩
  case waiting =>
    rw [offIdle (by rcases h with h | h <;> simp [h]), Tracker.edgeEvent_of_waiting (t := t.setLine true) h]
    rfl
  case first =>
    rw [offIdle (by simp [h]), Tracker.edgeEvent_of_inService (t := t.setLine true) h ha]
    rfl
  case second =>
    rw [offIdle (by simp [h]), Tracker.edgeEvent_of_inService_again (t := t.setLine true) h ha]
    rfl

/-- Settles O10: the assert event by whether it finds IDLE, and the fall of an EDGE source. -/
theorem assertEventAndEdgeFall : Obligations.AssertEventAndEdgeFall := by
  unfold Obligations.AssertEventAndEdgeFall
  intro n s hn hc src t taken
  refine ⟨fun hl _ h => exec_rise_of_idle hn hl hc h, fun hl he h => ?assert, fun hl he => ?fall⟩
  case assert =>
    rw [exec_rise_of_waits hn hl hc]
    exact congrArg _ (riseEvent_level_of_ne_idle (s := takeLineChange n s) he h)
  case fall =>
    rw [exec_fall_of_waits hn hl hc]
    exact congrArg _ (fallEvent_edge (s := takeLineChange n s) he)

end Sys2Proof.Machine

/-! PROOFS. FLUSH of a signal queue (R138, R139): the configuration permission and the reply of an accepted command;
the queue and the tracker by the state of the source; the row. -/

namespace Sys2Proof.Machine

open Sys2Proof.Safety

/-! An accepted configuration command and its reply -/

section
variable {p : Master} {s : State}

/-- A permitted configuration command that an unbound route admits gives its own answer (R19). -/
theorem configured_of_mayConfigure {src : Source} (h : MayConfigure s p src) (own : Answer) :
    configured false p src s own = own := by
  unfold configured permissionRefusal
  rcases h with h | h <;> simp [h]

/-- A reply without data to the word taken off the command queue (R149, R152). -/
theorem produceReply_answer_popCommand (code : Nat) (st : Status) :
    produceReply p (BitVec.ofNat 8 code) (answer st (popCommand p s)) = replied s p code st [] := by
  simp [produceReply_eq, popCommand_eq, answer, replied, repliedPort]

end

/-! The table of R139 -/

section
variable {g : SignalIndex} {s : State}

theorem flushQueue_of_idle (h : (s.tracker (signalSource g)).state = .idle) : flushQueue g s = s := by
  simp [flushQueue, h]

theorem flushQueue_of_pending (h : (s.tracker (signalSource g)).state = .pending) :
    flushQueue g s =
      (s.setQueue g []).setTracker (signalSource g) (idled (s.tracker (signalSource g))) := by
  simp [flushQueue, h, Tracker.toIdle, idled]

theorem flushQueue_of_offered_or_inService
    (h : (s.tracker (signalSource g)).state = .offered ∨ (s.tracker (signalSource g)).state = .inService) :
    flushQueue g s = s.setQueue g ((s.queue g).take 1) := by
  rcases h with h | h <;> simp [flushQueue, h]

/-- The table of R139 neither reads nor writes a port. -/
theorem flushQueue_popCommand (p : Master) : flushQueue g (popCommand p s) = popCommand p (flushQueue g s) := by
  have htr : (popCommand p s).tracker = s.tracker := rfl
  unfold flushQueue
  rw [htr]
  cases (s.tracker (signalSource g)).state <;> rfl

end

/-! The row, and the statement -/

theorem operandsOk_flush (g : SignalIndex) : operandsOk .flush (BitVec.ofNat 8 g.val) 0 = true := by
  revert g; decide

/-- A permitted FLUSH at the head of an ONLINE master's command queue acts by the table of R139 and is answered OK. -/
theorem exec_flush_of_permitted {p : Master} {g : SignalIndex} {s : State} (hr : HeadReady s p 0x19 g.val 0 1)
    (ho : (s.ctx p).portState = .online) (hm : MayConfigure s p (signalSource g)) :
    exec (.flush p) s = .next (replied (flushQueue g s) p 0x19 .ok []) := by
  obtain ⟨hw, hroom, hn⟩ := hr
  have hrun : executeCommand .flush flushEffect p s = produceReply p (codeByte .flush)
      (flushEffect p (BitVec.ofNat 8 g.val) 0 (popCommand p s)) :=
    executeCommand_ready ((resetWaits_eq_false s).2 hn) hw hroom (operandsOk_flush g) (by simp [ho])
  have heff : flushEffect p (BitVec.ofNat 8 g.val) 0 (popCommand p s) =
      answer .ok (popCommand p (flushQueue g s)) := by
    have hm' : MayConfigure (popCommand p s) p (signalSource g) := hm
    simp only [flushEffect, signalOf_ofNat, configured_of_mayConfigure hm', flushQueue_popCommand]
  have hreply : executeCommand .flush flushEffect p s = replied (flushQueue g s) p 0x19 .ok [] := by
    rw [hrun, heff]
    exact produceReply_answer_popCommand 0x19 .ok
  exact congrArg _ hreply

/-- Settles O40: the row is the table of R139, and each clause reads one of its lines. -/
theorem flushActsByState : Obligations.FlushActsByState := by
  unfold Obligations.FlushActsByState
  intro p g s hr ho hm src
  rw [exec_flush_of_permitted hr ho hm]
  refine ⟨fun h => ?idle, fun h => ?pending, fun h => ?delivery⟩
  case idle => rw [flushQueue_of_idle h]
  case pending => rw [flushQueue_of_pending h]
  case delivery => rw [flushQueue_of_offered_or_inService h]

end Sys2Proof.Machine

/-! PROOFS. One execution of a command word (R149 to R152): no effect reads or writes the command queue, so the head
word may leave it after the effect as well as before; and the state of an answered word. -/

namespace Sys2Proof.Machine

open Sys2Proof.Safety

/-! What taking the head word off the command queue leaves alone -/

section
variable (p : Master) (s : State)

@[simp] theorem popCommand_hubHeld : (popCommand p s).hubHeld = s.hubHeld := rfl
@[simp] theorem popCommand_inputs : (popCommand p s).inputs = s.inputs := rfl
@[simp] theorem popCommand_period : (popCommand p s).period = s.period := rfl
@[simp] theorem popCommand_tick : (popCommand p s).tick = s.tick := rfl
@[simp] theorem popCommand_settings : (popCommand p s).settings = s.settings := rfl
@[simp] theorem popCommand_pending : (popCommand p s).pending = s.pending := rfl
@[simp] theorem popCommand_tracker (i : Source) : (popCommand p s).tracker i = s.tracker i := rfl
@[simp] theorem popCommand_route (i : Source) : (popCommand p s).route i = s.route i := rfl
@[simp] theorem popCommand_ctx (m : Master) : (popCommand p s).ctx m = s.ctx m := rfl
@[simp] theorem popCommand_offer (m : Master) : (popCommand p s).offer m = s.offer m := rfl
@[simp] theorem popCommand_queue (g : SignalIndex) : (popCommand p s).queue g = s.queue g := rfl
@[simp] theorem popCommand_online (m : Master) : (popCommand p s).online m = s.online m := rfl
@[simp] theorem popCommand_present (m : Master) : (popCommand p s).present m = s.present m := rfl

theorem popCommand_port (m : Master) :
    (popCommand p s).port m =
      if p = m then { s.port m with commands := (s.port m).commands.tail } else s.port m := by
  rw [popCommand_eq, setPort_port]
  split
  · next h => rw [h]
  · rfl

end

/-! The updates of one record commute with it -/

section
variable (p : Master) (s : State)

@[simp] theorem popCommand_setTracker (i : Source) (x : Tracker) :
    (popCommand p s).setTracker i x = popCommand p (s.setTracker i x) := rfl
@[simp] theorem popCommand_setRoute (i : Source) (x : Route) :
    (popCommand p s).setRoute i x = popCommand p (s.setRoute i x) := rfl
@[simp] theorem popCommand_setCtx (m : Master) (x : Context) :
    (popCommand p s).setCtx m x = popCommand p (s.setCtx m x) := rfl
@[simp] theorem popCommand_setOffer (m : Master) (x : Option Offer) :
    (popCommand p s).setOffer m x = popCommand p (s.setOffer m x) := rfl
@[simp] theorem popCommand_setQueue (g : SignalIndex) (x : List Signal) :
    (popCommand p s).setQueue g x = popCommand p (s.setQueue g x) := rfl
@[simp] theorem popCommand_setSettings (x : Settings) :
    (popCommand p s).setSettings x = popCommand p (s.setSettings x) := rfl

theorem setPort_comm {p m : Master} (h : p ≠ m) (s : State) (x y : Port) :
    (s.setPort p x).setPort m y = (s.setPort m y).setPort p x := by
  have hv : p.val ≠ m.val := fun e => h (Fin.ext e)
  simp only [State.setPort, Vector.set_comm _ _ hv]

/-- An update of a port that passes over its command queue commutes with taking the head word. -/
theorem popCommand_updPort (m : Master) (f : Port → Port)
    (hf : ∀ q : Port, f { q with commands := q.commands.tail } = { f q with commands := (f q).commands.tail }) :
    (popCommand p s).updPort m f = popCommand p (s.updPort m f) := by
  by_cases h : p = m
  · subst h
    simp only [popCommand_eq, updPort_eq, setPort_port_self, setPort_setPort, hf]
  · simp only [popCommand_eq, updPort_eq, setPort_port_ne _ _ _ _ h, setPort_port_ne _ _ _ _ (Ne.symm h),
      setPort_comm h]

end

/-! The shared operations commute with it -/

section
variable (p : Master) (s : State)

theorem outside_popCommand : Outside (popCommand p) := by constructor <;> intros <;> rfl

@[simp] theorem withdraw_popCommand (m : Master) : withdraw m (popCommand p s) = popCommand p (withdraw m s) :=
  (outside_popCommand p).withdraw m s

@[simp] theorem withdrawSource_popCommand (src : Source) :
    withdrawSource src (popCommand p s) = popCommand p (withdrawSource src s) :=
  (outside_popCommand p).withdrawSource src s

@[simp] theorem dispatchPass_popCommand : dispatchPass (popCommand p s) = popCommand p (dispatchPass s) :=
  (outside_popCommand p).dispatchPass s

/-- A left fold of operations that commute with taking the head word commutes with it. -/
theorem foldl_popCommand {α : Type} (f : State → α → State)
    (hf : ∀ s a, f (popCommand p s) a = popCommand p (f s a)) (l : List α) :
    l.foldl f (popCommand p s) = popCommand p (l.foldl f s) := Outside.foldl f hf l s

@[simp] theorem queueNotice_popCommand (m : Master) (n : Notice) :
    queueNotice m n (popCommand p s) = popCommand p (queueNotice m n s) := by
  have hport : noticedPort n ((popCommand p s).port m) =
      if p = m then { noticedPort n (s.port m) with commands := (s.port m).commands.tail }
      else noticedPort n (s.port m) := by
    rw [popCommand_port]
    unfold noticedPort
    by_cases h : p = m <;> by_cases hn : (s.port m).notices.length < 8 <;> simp [h, hn]
  have hupd := popCommand_updPort p s m (noticedPort n) fun q => by unfold noticedPort; dsimp only; split <;> rfl
  rw [queueNotice_eq, queueNotice_eq, popCommand_present]
  split
  · exact hupd
  · rfl

@[simp] theorem notifyOthers_popCommand (m : Master) (n : Notice) :
    notifyOthers m n (popCommand p s) = popCommand p (notifyOthers m n s) :=
  foldl_popCommand p s _ (fun s k => by split <;> simp) masters

@[simp] theorem clearNotices_popCommand (m : Master) :
    clearNotices m (popCommand p s) = popCommand p (clearNotices m s) :=
  popCommand_updPort p s m _ fun _ => rfl

@[simp] theorem popNotice_popCommand (m : Master) : popNotice m (popCommand p s) = popCommand p (popNotice m s) :=
  popCommand_updPort p s m _ fun _ => rfl

@[simp] theorem setPortState_popCommand (m : Master) (ps : PortState) :
    setPortState m ps (popCommand p s) = popCommand p (setPortState m ps s) := rfl

@[simp] theorem bindingPassage_popCommand (m : Master) :
    bindingPassage m (popCommand p s) = popCommand p (bindingPassage m s) := by
  refine foldl_popCommand p s _ (fun s src => ?_) sources
  unfold passRoute
  simp only [popCommand_route, updRoute_eq, popCommand_online, popCommand_setRoute, queueNotice_popCommand]
  by_cases hb : (s.route src).binder = some m
  · cases hh : (s.route src).heir with
    | none => simp [hb]
    | some h => by_cases ho : s.online h = true <;> simp [hb, ho]
  · simp [hb]

@[simp] theorem endLeaving_popCommand (m : Master) : endLeaving m (popCommand p s) = popCommand p (endLeaving m s) := by
  simp [endLeaving]

@[simp] theorem restCompleted_popCommand (src : Source) :
    restCompleted src (popCommand p s) = popCommand p (restCompleted src s) := by
  unfold restCompleted
  split <;> rfl

@[simp] theorem restInterrupted_popCommand (src : Source) :
    restInterrupted src (popCommand p s) = popCommand p (restInterrupted src s) := rfl

@[simp] theorem fenceMaster_popCommand (m : Master) :
    fenceMaster m (popCommand p s) = popCommand p (fenceMaster m s) := by
  have hreclaim (l : List Entry) (s : State) :
      l.foldl (reclaimUncharged m) (popCommand p s) = popCommand p (l.foldl (reclaimUncharged m) s) :=
    foldl_popCommand p s _ (fun s e => by simp [reclaimUncharged]) l
  simp [fenceMaster, hreclaim]

@[simp] theorem noteTake_popCommand (m : Master) (src : Source) :
    noteTake m src (popCommand p s) = popCommand p (noteTake m src s) := by
  unfold noteTake
  simp only [updTracker_eq, updRoute_eq, updCtx_eq, popCommand_tracker, popCommand_setTracker, popCommand_route,
    popCommand_setRoute, popCommand_ctx, popCommand_setCtx, popCommand_offer, popCommand_setOffer]
  split
  · split <;> rfl
  · rfl

@[simp] theorem newEntry_popCommand (src : Source) (via : Via) :
    newEntry (popCommand p s) src via = newEntry s src via := rfl

@[simp] theorem takeSource_popCommand (m : Master) (src : Source) (via : Via) :
    takeSource m src via (popCommand p s) = popCommand p (takeSource m src via s) := by
  unfold takeSource
  rw [popCommand_route]
  split <;> simp

@[simp] theorem completeEntry_popCommand (m : Master) (src : Source) :
    completeEntry m src (popCommand p s) = popCommand p (completeEntry m src s) := by
  unfold completeEntry
  simp only [updCtx_eq, popCommand_ctx, popCommand_setCtx, restCompleted_popCommand, endLeaving_popCommand]
  exact (apply_ite (popCommand p) _ _ _).symm

@[simp] theorem lapseOffer_popCommand (m : Master) (o : Offer) :
    lapseOffer m o (popCommand p s) = popCommand p (lapseOffer m o s) := rfl

@[simp] theorem readmit_popCommand (m : Master) : readmit m (popCommand p s) = popCommand p (readmit m s) := by
  simp [readmit]

@[simp] theorem withdrawWhen_popCommand (fails : Offer → Bool) (m : Master) :
    withdrawWhen fails m (popCommand p s) = popCommand p (withdrawWhen fails m s) := by
  unfold withdrawWhen
  rw [popCommand_offer]
  split
  · split <;> simp
  · rfl

@[simp] theorem withdrawBelow_popCommand (m : Master) :
    withdrawBelow m (popCommand p s) = popCommand p (withdrawBelow m s) := by
  unfold withdrawBelow
  rw [popCommand_offer]
  split
  · simp only [popCommand_route, popCommand_ctx, withdraw_popCommand]
    exact (apply_ite (popCommand p) _ _ _).symm
  · rfl

@[simp] theorem withdrawNonTarget_popCommand (src : Source) :
    withdrawNonTarget src (popCommand p s) = popCommand p (withdrawNonTarget src s) := by
  unfold withdrawNonTarget
  rw [popCommand_tracker]
  split
  · simp only [popCommand_route, withdrawSource_popCommand]
    exact (apply_ite (popCommand p) _ _ _).symm
  · rfl

@[simp] theorem withdrawUnurgent_popCommand (src : Source) :
    withdrawUnurgent src (popCommand p s) = popCommand p (withdrawUnurgent src s) := by
  unfold withdrawUnurgent
  rw [popCommand_tracker]
  split
  · simp only [popCommand_route, popCommand_ctx, withdrawSource_popCommand]
    exact (apply_ite (popCommand p) _ _ _).symm
  · rfl

@[simp] theorem clearMisses_popCommand : clearMisses (popCommand p s) = popCommand p (clearMisses s) :=
  foldl_popCommand p s _ (fun _ _ => rfl) masters

@[simp] theorem soleMember_popCommand (m : Master) : soleMember (popCommand p s) m = soleMember s m := rfl

@[simp] theorem trigBusy_popCommand (src : Source) : trigBusy src (popCommand p s) = trigBusy src s := rfl

@[simp] theorem pollChoice_popCommand (m : Master) : pollChoice (popCommand p s) m = pollChoice s m := rfl

end

/-! The effect of each command -/

/-- The effect of the command `c` past the checks of its operands and its port state. -/
def effectOf : Code → Effect
  | .join => joinEffect
  | .leave => leaveEffect
  | .fence => fenceEffect
  | .unfence => unfenceEffect
  | .mask => maskEffect
  | .unmask => unmaskEffect
  | .thresh => threshEffect
  | .nest => nestEffect
  | .openMode => openEffect
  | .quiet => quietEffect
  | .loud => loudEffect
  | .setClass => setClassEffect
  | .setOffer => setOfferEffect
  | .setFence => setFenceEffect
  | .bind => bindEffect
  | .unbind => unbindEffect
  | .heir => heirEffect
  | .route => routeEffect
  | .urge => urgeEffect
  | .trig => trigEffect
  | .auto => autoEffect
  | .limit => limitEffect
  | .enable => enableEffect
  | .disable => disableEffect
  | .flush => flushEffect
  | .raise => raiseEffect
  | .pass => passEffect
  | .take => takeEffect
  | .poll => pollEffect
  | .done => doneEffect
  | .doneSrc => doneSrcEffect
  | .status => statusEffect
  | .readStack => readStackEffect
  | .readSrc => readSrcEffect
  | .readRoute => readRouteEffect
  | .readQ => readQEffect
  | .time => timeEffect
  | .notice => noticeEffect

/-- The row of a command is one execution with the command's effect. -/
theorem exec_execution (p : Master) (c : Code) (s : State) :
    exec (Instr.execution p c) s = .next (executeCommand c (effectOf c) p s) := by cases c <;> rfl

/-- An answer with the head word of port `p` gone from the command queue. -/
def Answer.popped (p : Master) (ans : Answer) : Answer := { ans with state := popCommand p ans.state }

section
variable (p : Master) (s : State)

@[simp] theorem popped_ite (c : Prop) [Decidable c] (x y : Answer) :
    (if c then x else y).popped p = if c then x.popped p else y.popped p := apply_ite (Answer.popped p) c x y

@[simp] theorem answer_popCommand (st : Status) : answer st (popCommand p s) = (answer st s).popped p := rfl

@[simp] theorem answerData_popCommand (l : List Word) : answerData l (popCommand p s) = (answerData l s).popped p := rfl

@[simp] theorem takeAnswer_popCommand (m : Master) (src : Source) (via : Via) :
    takeAnswer m src via (popCommand p s) = (takeAnswer m src via s).popped p := by simp [takeAnswer]

/-- A configuration command's permission does not depend on the command queue (R19). -/
@[simp] theorem configured_popCommand (needsBinder : Bool) (m : Master) (src : Source) (own : Answer) :
    configured needsBinder m src (popCommand p s) (own.popped p) = (configured needsBinder m src s own).popped p := by
  unfold configured permissionRefusal
  rw [popCommand_route]
  split <;> rfl

end

/-- No effect reads or writes the command queue, so it may run before the head word leaves. -/
theorem effectOf_popCommand (c : Code) (p : Master) (a : BitVec 8) (b : BitVec 16) (s : State) :
    effectOf c p a b (popCommand p s) = (effectOf c p a b s).popped p := by
  cases c
  case join => simp [effectOf, joinEffect]
  case leave =>
    simp only [effectOf, leaveEffect, withdraw_popCommand, popCommand_ctx, endLeaving_popCommand,
      setPortState_popCommand, ← apply_ite (popCommand p), dispatchPass_popCommand, answer_popCommand]
  case fence =>
    simp only [effectOf, fenceEffect, popCommand_ctx]
    cases (s.ctx (masterOf a)).portState <;> simp
  case unfence => simp [effectOf, unfenceEffect]
  case mask | unmask | thresh | quiet | loud =>
    simp [effectOf, maskEffect, unmaskEffect, threshEffect, quietEffect, loudEffect]
  case nest | openMode =>
    simp [effectOf, nestEffect, openEffect, setNesting]
    rfl
  case setClass | setOffer | setFence =>
    simp [effectOf, setClassEffect, setOfferEffect, setFenceEffect] <;> rfl
  case bind =>
    simp only [effectOf, bindEffect, popCommand_route]
    cases (s.route (sourceOf a)).binder <;> simp
  case unbind | limit | route | urge | enable | flush =>
    simp [effectOf, unbindEffect, limitEffect, routeEffect, urgeEffect, enableEffect, flushEffect,
      flushQueue_popCommand]
  case heir | trig | disable =>
    simp only [effectOf, heirEffect, trigEffect, disableEffect, updRoute_eq, updTracker_eq,
      popCommand_route, popCommand_tracker, popCommand_setRoute, popCommand_setTracker, trigBusy_popCommand,
      withdrawSource_popCommand, dispatchPass_popCommand, ← apply_ite (popCommand p), answer_popCommand,
      ← popped_ite, configured_popCommand] <;> rfl
  case auto =>
    simp only [effectOf, autoEffect, popCommand_tracker, popCommand_route]
    by_cases hi : (s.tracker (sourceOf a)).state = .inService
    · simp [hi]
    · by_cases hb : b = 1 ∧ (s.route (sourceOf a)).trigger = .level <;>
        simp only [hi, hb, and_self, if_true, if_false, updRoute_eq, popCommand_route, popCommand_setRoute, answer_popCommand,
          configured_popCommand]
  case raise =>
    simp only [effectOf, raiseEffect, popCommand_queue, popCommand_tracker, popCommand_setQueue, updTracker_eq,
      popCommand_setTracker, dispatchPass_popCommand, ← apply_ite (popCommand p), answer_popCommand, popped_ite]
  case pass =>
    simp only [effectOf, passEffect, popCommand_offer]
    cases s.offer p <;> simp
  case take =>
    simp only [effectOf, takeEffect, popCommand_offer]
    cases s.offer p <;> simp
  case poll =>
    simp only [effectOf, pollEffect, pollChoice_popCommand]
    cases pollChoice s p <;> simp
  case done =>
    simp only [effectOf, doneEffect, popCommand_ctx]
    cases (s.ctx p).stack.getLast? <;> simp
  case doneSrc =>
    simp [effectOf, doneSrcEffect]
    rfl
  case status | readStack | readSrc | readRoute | readQ | time => rfl
  case notice =>
    simp only [effectOf, noticeEffect, popCommand_port, if_true, popNotice_popCommand]
    cases (s.port p).notices <;> rfl

/-! The execution of a head word, as the state after its effect with the word answered -/

/-- The state of an answer, once port `p` has replied: the head word gone, the reply appended (R148, R149, R152). -/
def Answer.reply (p : Master) (code : BitVec 8) (ans : Answer) : State :=
  ans.state.setPort p (repliedPort (ans.state.port p) code.toNat ans.status ans.data ans.noticeOverflow)

theorem produceReply_popped (p : Master) (code : BitVec 8) (ans : Answer) :
    produceReply p code (ans.popped p) = ans.reply p code := by
  simp [produceReply_eq, Answer.popped, Answer.reply, repliedPort, popCommand_eq]

theorem answerCommand_popCommand (c : Code) (p : Master) (w : Word) (s : State) :
    answerCommand c (effectOf c) p w (popCommand p s) = (answerCommand c (effectOf c) p w s).popped p := by
  simp only [answerCommand, popCommand_ctx, effectOf_popCommand, answer_popCommand]
  by_cases ho : operandsOk c (operandA w) (operandB w) = true
  · cases hp : portStateRefusal c (s.ctx p).portState <;> simp [ho]
  · simp [ho]

/-- An executed head word leaves the state after its answer, with the word replied to (R149). -/
theorem executeCommand_eq_reply {c : Code} {p : Master} {s : State} {w : Word} {rest : List Word}
    (hn : s.resetWaits = false) (hq : (s.port p).commands = w :: rest) (hc : codeField w = codeByte c)
    (hr : (s.port p).replies.length + reservedWords c ≤ 16) :
    executeCommand c (effectOf c) p s = (answerCommand c (effectOf c) p w s).reply p (codeByte c) := by
  rw [executeCommand_of_head hn hq hc hr, answerCommand_popCommand, produceReply_popped, hc]

/-- All of the row of a command: nothing changes, or the head word is answered. -/
theorem exec_execution_cases (p : Master) (c : Code) (s : State) :
    exec (Instr.execution p c) s = .next s ∨
      ∃ w rest, s.resetWaits = false ∧ (s.port p).commands = w :: rest ∧ codeField w = codeByte c ∧
        (s.port p).replies.length + reservedWords c ≤ 16 ∧
        exec (Instr.execution p c) s = .next ((answerCommand c (effectOf c) p w s).reply p (codeByte c)) := by
  rw [exec_execution]
  rcases executeCommand_cases c (effectOf c) p s with h | ⟨w, rest, hn, hq, hc, hr, -⟩
  · exact .inl (congrArg _ h)
  · exact .inr ⟨w, rest, hn, hq, hc, hr, congrArg _ (executeCommand_eq_reply hn hq hc hr)⟩

section
variable {p : Master} {s : State}

/-- A ready head word that passes the checks is answered by its effect. -/
theorem exec_of_ready {c : Code} {a b : Nat} {u : State} {st : Status} {data : List Word} {lost : Bool}
    (hr : HeadReady s p (codeByte c).toNat a b (reservedWords c))
    (ho : operandsOk c (.ofNat 8 a) (.ofNat 16 b) = true) (hp : portStateRefusal c (s.ctx p).portState = none)
    (he : effectOf c p (.ofNat 8 a) (.ofNat 16 b) s = ⟨st, data, lost, u⟩) :
    exec (Instr.execution p c) s =
      .next (u.setPort p (repliedPort (u.port p) (codeByte c).toNat st data lost)) := by
  obtain ⟨hw, hroom, hn⟩ := hr
  obtain ⟨rest, hq⟩ := List.head?_eq_some_iff.1 hw
  rw [exec_execution, executeCommand_eq_reply ((resetWaits_eq_false s).2 hn) hq (by simp) hroom]
  simp only [answerCommand, operandA_commandWord, operandB_commandWord, ho, hp, he, if_true]
  rfl

/-- The same where the caller is ONLINE, which every command accepts (R40), and no notice was lost. -/
theorem exec_of_ready_online {c : Code} {a b : Nat} {u : State} {st : Status} {data : List Word}
    (hr : HeadReady s p (codeByte c).toNat a b (reservedWords c)) (hp : (s.ctx p).portState = .online)
    (ho : operandsOk c (.ofNat 8 a) (.ofNat 16 b) = true)
    (he : effectOf c p (.ofNat 8 a) (.ofNat 16 b) s = ⟨st, data, false, u⟩) :
    exec (Instr.execution p c) s = .next (replied u p (codeByte c).toNat st data) :=
  exec_of_ready hr ho (by simp [hp]) he

end

end Sys2Proof.Machine

/-! PROOFS. The records that no delivery, membership or configuration operation reaches: the lines, the timebase and
the queue of waiting commands; and what the operations on offers leave of each record. -/

namespace Sys2Proof.Machine

open Sys2Proof.Safety

/-! The timebase of each operation -/

/-- The records of `SameTimebase`: lines, timebase, hub settings and the queue of waiting commands. -/
def State.timebase (s : State) : Bool × Inputs × Fin 64 × Tick × Settings × List Instr :=
  (s.hubHeld, s.inputs, s.period, s.tick, s.settings, s.pending)

theorem sameTimebase_iff {s u : State} : SameTimebase s u ↔ u.timebase = s.timebase := by
  simp [SameTimebase, State.timebase]

theorem PassFrame.timebase {s t : State} (h : PassFrame s t) : t.timebase = s.timebase := by
  simp [State.timebase, h.hubHeld, h.inputs, h.period, h.tick, h.settings, h.pending]

theorem NoticeFrame.timebase {s t : State} (h : NoticeFrame s t) : t.timebase = s.timebase := by
  simp [State.timebase, h.hubHeld, h.inputs, h.period, h.tick, h.settings, h.pending]

theorem PassageFrame.timebase {s t : State} (h : PassageFrame s t) : t.timebase = s.timebase := by
  simp [State.timebase, h.hubHeld, h.inputs, h.period, h.tick, h.settings, h.pending]

/-- A left fold of operations that each keep the timebase keeps it. -/
theorem foldl_timebase {α : Type} (f : State → α → State) (hf : ∀ s a, (f s a).timebase = s.timebase) (l : List α)
    (s : State) : (l.foldl f s).timebase = s.timebase := by
  induction l generalizing s with
  | nil => rfl
  | cons a rest ih => exact (ih _).trans (hf s a)

section
variable (s : State)

@[simp] theorem setTracker_timebase (i : Source) (x : Tracker) : (s.setTracker i x).timebase = s.timebase := rfl
@[simp] theorem setRoute_timebase (i : Source) (x : Route) : (s.setRoute i x).timebase = s.timebase := rfl
@[simp] theorem setCtx_timebase (m : Master) (x : Context) : (s.setCtx m x).timebase = s.timebase := rfl
@[simp] theorem setOffer_timebase (m : Master) (x : Option Offer) : (s.setOffer m x).timebase = s.timebase := rfl
@[simp] theorem setQueue_timebase (g : SignalIndex) (x : List Signal) : (s.setQueue g x).timebase = s.timebase := rfl
@[simp] theorem setPort_timebase (m : Master) (x : Port) : (s.setPort m x).timebase = s.timebase := rfl

@[simp] theorem withdraw_timebase (m : Master) : (withdraw m s).timebase = s.timebase := (withdraw_frame m s).timebase
@[simp] theorem withdrawSource_timebase (src : Source) : (withdrawSource src s).timebase = s.timebase :=
  (withdrawSource_frame src s).timebase
@[simp] theorem dispatchPass_timebase : (dispatchPass s).timebase = s.timebase := (dispatchPass_frame s).timebase
@[simp] theorem queueNotice_timebase (m : Master) (n : Notice) : (queueNotice m n s).timebase = s.timebase :=
  (queueNotice_frame m n s).timebase
@[simp] theorem notifyOthers_timebase (m : Master) (n : Notice) : (notifyOthers m n s).timebase = s.timebase :=
  (notifyOthers_frame m n s).timebase
@[simp] theorem bindingPassage_timebase (m : Master) : (bindingPassage m s).timebase = s.timebase :=
  (bindingPassage_frame m s).timebase

@[simp] theorem restCompleted_timebase (src : Source) : (restCompleted src s).timebase = s.timebase := by
  unfold restCompleted
  cases signalIndex src <;> rfl

@[simp] theorem endLeaving_timebase (m : Master) : (endLeaving m s).timebase = s.timebase := by
  simp [endLeaving, clearNotices, setPortState]

@[simp] theorem noteTake_timebase (m : Master) (src : Source) : (noteTake m src s).timebase = s.timebase := by
  unfold noteTake
  dsimp only
  split
  · split <;> rfl
  · rfl

@[simp] theorem takeSource_timebase (m : Master) (src : Source) (via : Via) :
    (takeSource m src via s).timebase = s.timebase := by
  unfold takeSource
  split <;> simp

@[simp] theorem completeEntry_timebase (m : Master) (src : Source) : (completeEntry m src s).timebase = s.timebase := by
  unfold completeEntry
  dsimp only
  split <;> simp

@[simp] theorem fenceMaster_timebase (m : Master) : (fenceMaster m s).timebase = s.timebase := by
  have hr (l : List Entry) (s : State) : (l.foldl (reclaimUncharged m) s).timebase = s.timebase :=
    foldl_timebase _ (fun s e => by simp [reclaimUncharged, restInterrupted]) l s
  simp [fenceMaster, setPortState, hr]

@[simp] theorem reclaimCharged_timebase (m : Master) (src : Source) : (reclaimCharged m src s).timebase = s.timebase := by
  unfold reclaimCharged
  dsimp only
  split
  · simp [restInterrupted]
  · split <;> simp [restInterrupted]

@[simp] theorem portResetPresent_timebase (m : Master) : (portResetPresent m s).timebase = s.timebase := by
  have hr (l : List Entry) (s : State) : (l.foldl (releaseEntry m) s).timebase = s.timebase :=
    foldl_timebase (releaseEntry m) (fun _ _ => rfl) l s
  simp [portResetPresent, resetPortRecords, setPortState, hr]

end

theorem inputs_of_timebase {s t : State} (h : t.timebase = s.timebase) : t.inputs = s.inputs :=
  (sameTimebase_iff.2 h).2.1

theorem hubHeld_of_timebase {s t : State} (h : t.timebase = s.timebase) : t.hubHeld = s.hubHeld :=
  (sameTimebase_iff.2 h).1

theorem settings_of_timebase {s t : State} (h : t.timebase = s.timebase) : t.settings = s.settings :=
  (sameTimebase_iff.2 h).2.2.2.2.1

/-! The records under the withdrawal of an offer -/

section
variable (m k : Master) (src : Source) (s : State)

theorem PassFrame.route_eq {s t : State} (h : PassFrame s t) (i : Source) : t.route i = s.route i := by
  simp only [State.route, h.routes]

theorem PassFrame.ctx_eq {s t : State} (h : PassFrame s t) (m : Master) : t.ctx m = s.ctx m := by
  simp only [State.ctx, h.contexts]

theorem PassFrame.queue_eq {s t : State} (h : PassFrame s t) (g : SignalIndex) : t.queue g = s.queue g := by
  simp only [State.queue, h.queues]

theorem PassFrame.port_eq {s t : State} (h : PassFrame s t) (p : Master) : t.port p = s.port p := by
  simp only [State.port, h.ports]

@[simp] theorem withdraw_route (i : Source) : (withdraw m s).route i = s.route i := (withdraw_frame m s).route_eq i
@[simp] theorem withdraw_ctx : (withdraw m s).ctx k = s.ctx k := (withdraw_frame m s).ctx_eq k
@[simp] theorem withdraw_queue (g : SignalIndex) : (withdraw m s).queue g = s.queue g := (withdraw_frame m s).queue_eq g
@[simp] theorem withdraw_port : (withdraw m s).port k = s.port k := (withdraw_frame m s).port_eq k
@[simp] theorem withdraw_settings : (withdraw m s).settings = s.settings := (withdraw_frame m s).settings
@[simp] theorem withdraw_online : (withdraw m s).online k = s.online k := by simp [State.online]
@[simp] theorem withdraw_present : (withdraw m s).present k = s.present k := by simp [State.present]

@[simp] theorem withdrawSource_route (i : Source) : (withdrawSource src s).route i = s.route i :=
  (withdrawSource_frame src s).route_eq i
@[simp] theorem withdrawSource_ctx : (withdrawSource src s).ctx k = s.ctx k := (withdrawSource_frame src s).ctx_eq k
@[simp] theorem withdrawSource_queue (g : SignalIndex) : (withdrawSource src s).queue g = s.queue g :=
  (withdrawSource_frame src s).queue_eq g
@[simp] theorem withdrawSource_port : (withdrawSource src s).port k = s.port k := (withdrawSource_frame src s).port_eq k
@[simp] theorem withdrawSource_settings : (withdrawSource src s).settings = s.settings :=
  (withdrawSource_frame src s).settings

@[simp] theorem dispatchPass_iackInput : (dispatchPass s).iackInput k = s.iackInput k := by
  simp only [State.iackInput, dispatchPass_inputs]

/-- The withdrawal of an offer, in the form of the statements (R63). -/
theorem withdraw_eq_withdrawnOffer : withdraw m s = withdrawnOffer s m := rfl

theorem withdraw_of_none {m : Master} {s : State} (h : s.offer m = none) : withdraw m s = s := by simp [withdraw, h]

theorem withdraw_of_some {m : Master} {s : State} {o : Offer} (h : s.offer m = some o) :
    withdraw m s = (s.setTracker o.source (waiting (s.tracker o.source))).setOffer m none := by
  simp [withdraw, h, Tracker.toPending, waiting]

/-- The offer records after a withdrawal: that of the master is empty. -/
theorem withdraw_offer : (withdraw m s).offer k = if m = k then none else s.offer k := by
  cases ho : s.offer m with
  | none =>
    rw [withdraw_of_none ho]
    split
    · next h => exact h ▸ ho
    · rfl
  | some o => simp [withdraw_of_some ho, setOffer_offer]

/-- The trackers after a withdrawal: that of the offer's source is PENDING without a holder (R63). -/
theorem withdraw_tracker (i : Source) :
    (withdraw m s).tracker i =
      if (s.offer m).map (·.source) = some i then waiting (s.tracker i) else s.tracker i := by
  cases ho : s.offer m with
  | none => simp [withdraw_of_none ho]
  | some o =>
    rw [withdraw_of_some ho, setOffer_tracker, setTracker_tracker]
    by_cases h : o.source = i
    · subst h; simp
    · simp [h]

theorem withdrawSource_of_offered {src : Source} {s : State} {m : Master} (h : (s.tracker src).state = .offered)
    (hm : (s.tracker src).holder = some m) :
    withdrawSource src s = (s.setTracker src (waiting (s.tracker src))).setOffer m none := by
  simp [withdrawSource, h, hm, Tracker.toPending, waiting]

theorem withdrawSource_of_not_offered {src : Source} {s : State} (h : (s.tracker src).state ≠ .offered) :
    withdrawSource src s = s := by
  unfold withdrawSource
  split
  · contradiction
  · rfl

end

end Sys2Proof.Machine

/-! PROOFS. Taking an offer (R85 to R96): the entry and the records of a take; ACK_READ, the IACK strobe, TAKE and
POLL. -/

namespace Sys2Proof.Machine

open Sys2Proof.Safety

/-! The take -/

section
variable (m : Master) (src : Source) (via : Via) (s : State)

theorem newDue_eq_dueAtTake : newDue s (s.route src).limitClass = dueAtTake s src := by
  unfold newDue dueAtTake
  match hc : (s.route src).limitClass with
  | 0 | 1 | 2 | 3 => simp [classLimit]

theorem headSignal_eq (h : 24 ≤ src.val) : headSignal s src = (s.queue ⟨src.val - 24, by omega⟩).head? := by
  simp [headSignal, signalIndex, h]

/-- The entry a take pushes, with its fields written out (R93). -/
theorem newEntry_eq_entryAtTake : newEntry s src via = entryAtTake s src via := by
  unfold newEntry entryAtTake
  rw [newDue_eq_dueAtTake]
  congr 1
  split
  · next h => exact headSignal_eq src s h
  · next h => simp [headSignal, signalIndex, h]

theorem filter_bne (l : List Source) : l.filter (· != src) = l.filter (· ≠ src) :=
  List.filter_congr fun x _ => by by_cases h : x = src <;> simp [h]

theorem setOffer_same {m : Master} {o : Option Offer} {s : State} (h : s.offer m = o) : s.setOffer m o = s := by
  rw [← h, setOffer_get]

/-- Steps 1 to 4 of R94 as one state. -/
theorem noteTake_eq_takeNoted : noteTake m src s = takeNoted s m src := by
  unfold noteTake takeNoted
  simp only [updTracker_eq, updRoute_eq, updCtx_eq, setTracker_route, setRoute_ctx, setTracker_ctx, setCtx_offer,
    setRoute_offer, setTracker_offer, filter_bne]
  cases ho : s.offer m with
  | none =>
    simp only [ite_self]
    exact (setOffer_same (by exact ho)).symm
  | some o =>
    by_cases hs : o.source = src
    · simp [hs]
    · simp only [hs, Option.map_some, Option.some.injEq, if_false]
      exact (setOffer_same (by exact ho)).symm

end

/-- All of the take of a source (R93 to R95). -/
theorem takeSource_taken (m : Master) (src : Source) (via : Via) (s : State) :
    Taken s m src via (takeSource m src via s) := by
  refine ⟨fun ha => ?push, fun ha hl hag => ?edgeLine, fun ha g hg => ?signal⟩
  case push =>
    simp [takeSource, ha, noteTake_eq_takeNoted, takeNoted, newEntry_eq_entryAtTake]
  case edgeLine =>
    obtain ⟨hlt, htr⟩ := hl
    have hi : signalIndex src = none := signalIndex_eq_none.2 (by simpa [isLineSource] using hlt)
    simp [takeSource, ha, noteTake_eq_takeNoted, restCompleted, hi, takeNoted, Tracker.completeLine, htr, hag,
      Tracker.toIdle, idled]
  case signal =>
    have hi : signalIndex src = some g := signalIndex_eq_some.2 hg
    simp [takeSource, ha, noteTake_eq_takeNoted, restCompleted, hi, takeNoted, Tracker.completeSignal,
      Tracker.toIdle, Tracker.toPending, idled]


/-- A take reaches no port. -/
@[simp] theorem takeSource_port (m : Master) (src : Source) (via : Via) (s : State) (p : Master) :
    (takeSource m src via s).port p = s.port p := by
  unfold takeSource
  rw [noteTake_eq_takeNoted]
  split <;> simp [takeNoted]

/-! The acknowledge access at the window (R85) and at the strobe (R86) -/

section
variable {p : Master} {s : State}

theorem acknowledge_of_offer {o : Offer} (ho : s.offer p = some o) :
    acknowledge p s =
      (takeWord (entryAtTake s o.source .ack), dispatchPass (takeSource p o.source .ack s)) := by
  simp [acknowledge, ho, newEntry_eq_entryAtTake]

theorem acknowledge_of_none (ho : s.offer p = none) : acknowledge p s = (0, s) := by
  simp [acknowledge, ho, noneTakeWord]

/-- An ACK_READ that no reset holds up is one acknowledge access (R85). -/
theorem exec_ackRead_of_open (hr : ReadsOpen s p) (hn : NoResetWaits s ∨ s.offer p = none) :
    exec (.ackRead p) s = .next (returnRead p (acknowledge p s).1 (acknowledge p s).2) := by
  have hgo : (readsOpen s p && s.resetWaits && (s.offer p).isSome) = false := by
    rcases hn with hn | hn
    · simp [(resetWaits_eq_false s).2 hn]
    · simp [hn]
  simp only [exec, execAckRead, hgo, busRead_of_open hr]
  rfl

/-- The recognised change of IACK taken, in the records it writes. -/
theorem takeIackChange_eq (held : Bool) (w : Word) (t : State) :
    takeIackChange p held w t =
      (t.setInputs { t.inputs with
        iack := t.inputs.iack.set p.val { t.iackInput p with change := false } p.isLt }).setPort p
        { t.port p with iackHeld := held, ackWord := w } := rfl

/-- An IACK_PULSE that begins an acknowledge access (R86). -/
theorem exec_iackPulse_of_access (hw : IackWaits s p) (hi : ¬ (ResetHeld s p ∨ ReleaseWaits s p))
    (hn : NoResetWaits s) :
    exec (.iackPulse p) s = .next (takeIackChange p true (acknowledge p s).1 (acknowledge p s).2) := by
  have hi' : iackIgnored s p = false := Bool.eq_false_iff.2 fun h => hi ((iackIgnored_iff s p).1 h)
  obtain ⟨hl, hc⟩ := hw
  simp [exec, execIackPulse, Sampler.waiting, hl, hc, hi', (resetWaits_eq_false s).2 hn]

/-- While IACK is asserted, as recognised, a bus read answers the word it carries, or waits for it (R86, R156). -/
theorem busRead_of_asserted (hh : ¬ ResetHeld s p) (hl : (s.iackInput p).level = true) (own : Word) (t : State) :
    busRead p own t s = if (s.port p).iackHeld then returnRead p (s.port p).ackWord s else s := by
  have hw : windowHeld s p = false := Bool.eq_false_iff.2 fun hw => hh ((windowHeld_iff s p).1 hw)
  simp [busRead, hw, hl]

/-- RPL_READ is one bus read. -/
theorem exec_rplRead_eq (p : Master) (s : State) : ∃ own t, exec (.rplRead p) s = .next (busRead p own t s) := by
  simp only [exec, execRplRead]
  cases (s.port p).replies with
  | nil => exact ⟨_, _, rfl⟩
  | cons w rest => exact ⟨_, _, rfl⟩

/-- ACK_READ is one bus read where the window does not answer for its offset. -/
theorem exec_ackRead_of_not_open (hr : ¬ ReadsOpen s p) :
    exec (.ackRead p) s = .next (busRead p (acknowledge p s).1 (acknowledge p s).2 s) := by
  have hr' : readsOpen s p = false := Bool.eq_false_iff.2 fun h => hr ((readsOpen_iff s p).1 h)
  simp [exec, execAckRead, hr']

/-- The reads of PSTAT and of offset 0CH while IACK is asserted, as recognised. -/
theorem busWord_of_asserted (hh : ¬ ResetHeld s p) (hl : (s.iackInput p).level = true) (own : Word) :
    busWord s p own = if (s.port p).iackHeld then some (s.port p).ackWord else none := by
  have hw : windowHeld s p = false := Bool.eq_false_iff.2 fun hw => hh ((windowHeld_iff s p).1 hw)
  simp [busWord, hw, hl]

end

/-- Settles O18: the open read is one acknowledge access, whose take is that of R93 to R95. -/
theorem ackReadTakesTheOffer : Obligations.AckReadTakesTheOffer := by
  unfold Obligations.AckReadTakesTheOffer
  intro p s hr
  refine ⟨fun o ho hn => ⟨takeSource p o.source .ack s, takeSource_taken .., ?offer⟩, fun ho => ?noOffer⟩
  case offer =>
    rw [exec_ackRead_of_open hr (.inl hn), acknowledge_of_offer ho]
    simp [returnRead]
  case noOffer =>
    rw [exec_ackRead_of_open hr (.inr ho), acknowledge_of_none ho]
    simp [returnRead]

/-- Settles O19: one access at the recognised assertion, its release, and the reads between. -/
theorem iackPulseTakesAndReleaseEnds : Obligations.IackPulseTakesAndReleaseEnds := by
  unfold Obligations.IackPulseTakesAndReleaseEnds
  intro p s inputs
  refine ⟨fun hh hw hn hi => ⟨fun o ho => ⟨takeSource p o.source .ack s, takeSource_taken .., ?offer⟩,
    fun ho => ?noOffer⟩, fun hl hc => ?release, fun hh hl hk => ?carried, fun hh hl hk => ?waits⟩
  case offer =>
    rw [exec_iackPulse_of_access hi (by simp [hh, hw]) hn, acknowledge_of_offer ho, takeIackChange_eq]
    have hin : (takeSource p o.source .ack s).inputs = s.inputs := inputs_of_timebase (by simp)
    simp [inputs, hin, State.iackInput]
  case noOffer =>
    rw [exec_iackPulse_of_access hi (by simp [hh, hw]) hn, acknowledge_of_none ho, takeIackChange_eq]
  case release =>
    simp [exec, execIackRelease, Sampler.waiting, hl, hc, takeIackChange_eq, inputs]
  case carried =>
    obtain ⟨own, t, hrpl⟩ := exec_rplRead_eq p s
    have hack := exec_ackRead_of_not_open (fun h => by simp [ReadsOpen, hl] at h : ¬ ReadsOpen s p)
    rw [hrpl, hack]
    simp [busRead_of_asserted hh hl, busWord_of_asserted hh hl, pstatRead, offset0CRead, hk, returnRead]
  case waits =>
    obtain ⟨own, t, hrpl⟩ := exec_rplRead_eq p s
    have hack := exec_ackRead_of_not_open (fun h => by simp [ReadsOpen, hl] at h : ¬ ReadsOpen s p)
    rw [hrpl, hack]
    simp [busRead_of_asserted hh hl, busWord_of_asserted hh hl, pstatRead, offset0CRead, hk]

/-! The takes by command (R87, R90, R91) -/

section
variable {p : Master} {s : State}

/-- A ready command of an ONLINE master whose effect takes `src` is answered with its take word (R87, R91, R94). -/
theorem exec_of_takeAnswer {c : Code} {src : Source} {via : Via}
    (hr : HeadReady s p (codeByte c).toNat 0 0 (reservedWords c)) (hp : (s.ctx p).portState = .online)
    (ho : operandsOk c 0 0 = true) (he : effectOf c p 0 0 s = takeAnswer p src via s) :
    exec (Instr.execution p c) s =
      .next (replied (dispatchPass (takeSource p src via s)) p (codeByte c).toNat .ok
        [takeWord (entryAtTake s src via)]) :=
  exec_of_ready_online hr hp ho (he.trans (by simp [takeAnswer, answerData, newEntry_eq_entryAtTake]))

end

/-- Settles O20: TAKE takes the source of the caller's offer record. -/
theorem takeTakesTheOffer : Obligations.TakeTakesTheOffer := by
  unfold Obligations.TakeTakesTheOffer
  intro p s hr hp
  refine ⟨fun o ho => ⟨takeSource p o.source .take s, takeSource_taken .., ?offer⟩, fun ho => ?noOffer⟩
  case offer => exact exec_of_takeAnswer (c := .take) hr hp rfl (by simp [effectOf, takeEffect, ho])
  case noOffer =>
    exact exec_of_ready_online (c := .take) hr hp rfl (by simp [effectOf, takeEffect, ho, answer])

end Sys2Proof.Machine

/-! PROOFS. POLL (R90, R91): the conditions of eligibility read back as rules, the candidates at one urgency, and the
choice among all. -/

namespace Sys2Proof.Machine

open Sys2Proof.Safety

/-! The conditions of R64 and R65 -/

section
variable {s : State} {src : Source} {m : Master}

theorem aboveLevel_iff {u : Urgency} {c : Context} :
    aboveLevel u c = true ↔ (c.nesting = .nested → ∀ e, c.stack.getLast? = some e → e.urgency < u) := by
  unfold aboveLevel effectiveLevel
  cases hn : c.nesting with
  | openMode => simp
  | nested => cases hl : c.stack.getLast? <;> simp

theorem online_iff : s.online m = true ↔ (s.ctx m).portState = .online := by simp [State.online]

theorem eligibleToPoll_iff :
    eligibleToPoll s src m = true ↔
      setHas (s.route src).targets m = true ∧ (s.ctx m).portState = .online ∧
      setHas (s.tracker src).passSet m = false ∧ setHas (s.ctx m).maskSet src = false ∧
      UrgencySuits (s.route src).urgency (s.ctx m) ∧ (s.ctx m).stack.length < 8 := by
  simp only [eligibleToPoll, Bool.and_eq_true, Bool.not_eq_true', decide_eq_true_eq, online_iff, aboveLevel_iff,
    UrgencySuits, and_assoc]
  exact Iff.rfl

theorem eligible_iff : eligible s src m = true ↔ (s.ctx m).lineMode = .line ∧ eligibleToPoll s src m = true := by
  simp [eligible]

theorem offerable_iff :
    offerable s src = true ↔
      (s.tracker src).state = .pending ∧ (s.route src).enabled = true ∧ (s.route src).targets ≠ 0 := by
  simp [offerable, and_assoc]

theorem pollCandidate_iff :
    PollCandidate s m src ↔ OwnOffer s m src ∨ pollCandidate s m src = true := by
  simp only [PollCandidate, pollCandidate, Bool.and_eq_true, eligibleToPoll_iff, beq_iff_eq, and_assoc]

end

/-- Settles O54: the conditions of R64 and R65 one by one. -/
theorem eligibleAndOfferableConditions : Obligations.EligibleAndOfferableConditions := by
  unfold Obligations.EligibleAndOfferableConditions
  intro s src m
  refine ⟨?_, offerable_iff⟩
  rw [eligible_iff, eligibleToPoll_iff]
  constructor
  · rintro ⟨hl, ht, ho, rest⟩; exact ⟨ht, ho, hl, rest⟩
  · rintro ⟨ht, ho, hl, rest⟩; exact ⟨hl, ht, ho, rest⟩

/-! The candidates at one urgency (R91) -/

section
variable {s : State} {p : Master} {u : Urgency}

theorem sources_pairwise : sources.Pairwise (· < ·) := by decide

theorem urgencies_pairwise : urgencies.Pairwise (· > ·) := by decide

/-- The lowest-numbered PENDING candidate of urgency `u`. -/
theorem find_candidate_some {src : Source}
    (h : sources.find? (fun src => ((s.route src).urgency == u) && pollCandidate s p src) = some src) :
    (s.route src).urgency = u ∧ pollCandidate s p src = true ∧
      ∀ j, (s.route j).urgency = u → pollCandidate s p j = true → src ≤ j := by
  obtain ⟨hsrc, as, bs, hl, has⟩ := List.find?_eq_some_iff_append.1 h
  simp only [Bool.and_eq_true, beq_iff_eq] at hsrc
  refine ⟨hsrc.1, hsrc.2, fun j hu hj => ?_⟩
  have hp := hl ▸ sources_pairwise
  rcases List.mem_append.1 (hl ▸ mem_sources j) with hm | hm
  · simpa [hu, hj] using has j hm
  · rcases List.mem_cons.1 hm with rfl | hm
    · exact le_rfl
    · exact ((List.pairwise_cons.1 (List.pairwise_append.1 hp).2.1).1 j hm).le

theorem pollAt_own {o : Offer} (ho : s.offer p = some o) (hu : (s.route o.source).urgency = u) :
    pollAt s p u = some o.source := by simp [pollAt, ho, hu]

theorem pollAt_not_own (h : ∀ o, s.offer p = some o → (s.route o.source).urgency ≠ u) :
    pollAt s p u = sources.find? (fun src => ((s.route src).urgency == u) && pollCandidate s p src) := by
  unfold pollAt
  split
  · next o ho => rw [if_neg (h o ho)]
  · rfl

theorem ownOffer_iff {src : Source} : OwnOffer s p src ↔ ∃ o, s.offer p = some o ∧ o.source = src := by
  simp [OwnOffer]

/-- Either the caller's own offer is of urgency `u`, or no own offer is. -/
theorem ownOffer_at (s : State) (p : Master) (u : Urgency) :
    (∃ o, s.offer p = some o ∧ (s.route o.source).urgency = u) ∨
      ∀ o, s.offer p = some o → (s.route o.source).urgency ≠ u := by
  by_cases h : ∃ o, s.offer p = some o ∧ (s.route o.source).urgency = u
  · exact .inl h
  · exact .inr fun o ho hu => h ⟨o, ho, hu⟩

/-- What POLL finds at urgency `u` is a candidate, and first among those of that urgency (R91). -/
theorem pollAt_some {src : Source} (h : pollAt s p u = some src) :
    PollCandidate s p src ∧ (s.route src).urgency = u ∧
      ∀ j, PollCandidate s p j → (s.route j).urgency = u → OwnOffer s p src ∨ (¬ OwnOffer s p j ∧ src ≤ j) := by
  rcases ownOffer_at s p u with ⟨o, ho, hu⟩ | hno
  · obtain rfl : o.source = src := Option.some.inj ((pollAt_own ho hu).symm.trans h)
    have hown : OwnOffer s p o.source := ownOffer_iff.2 ⟨o, ho, rfl⟩
    exact ⟨.inl hown, hu, fun _ _ _ => .inl hown⟩
  · rw [pollAt_not_own hno] at h
    obtain ⟨hu, hc, hmin⟩ := find_candidate_some h
    refine ⟨pollCandidate_iff.2 (.inr hc), hu, fun j hj hju => .inr ?_⟩
    have hnj : ¬ OwnOffer s p j := fun hj => by
      obtain ⟨o, ho, rfl⟩ := ownOffer_iff.1 hj
      exact hno o ho hju
    exact ⟨hnj, hmin j hju ((pollCandidate_iff.1 hj).resolve_left hnj)⟩

/-- Where POLL finds nothing at urgency `u`, no candidate has it. -/
theorem pollAt_none (h : pollAt s p u = none) {j : Source} (hj : PollCandidate s p j) : (s.route j).urgency ≠ u := by
  intro hu
  rcases ownOffer_at s p u with ⟨o, ho, hou⟩ | hno
  · simp [pollAt_own ho hou] at h
  · rw [pollAt_not_own hno, List.find?_eq_none] at h
    rcases pollCandidate_iff.1 hj with hown | hc
    · obtain ⟨o, ho, rfl⟩ := ownOffer_iff.1 hown
      exact hno o ho hu
    · exact h j (mem_sources j) (by simp [hu, hc])

/-! The choice among all urgencies -/

theorem pollChoice_none (h : pollChoice s p = none) (j : Source) : ¬ PollCandidate s p j := fun hj =>
  pollAt_none (List.findSome?_eq_none_iff.1 h _ (mem_urgencies _)) hj rfl

/-- POLL's choice is a candidate, the most urgent, and first among those of its urgency (R91). -/
theorem pollChoice_some {src : Source} (h : pollChoice s p = some src) :
    PollCandidate s p src ∧ (∀ j, PollCandidate s p j → (s.route j).urgency ≤ (s.route src).urgency) ∧
      ∀ j, PollCandidate s p j → (s.route j).urgency = (s.route src).urgency →
        OwnOffer s p src ∨ (¬ OwnOffer s p j ∧ src ≤ j) := by
  obtain ⟨above, v, below, hl, hv, hnone⟩ := List.findSome?_eq_some_iff.1 h
  obtain ⟨hc, rfl, hfirst⟩ := pollAt_some hv
  refine ⟨hc, fun j hj => ?_, fun j hj hu => hfirst j hj hu⟩
  have hp := hl ▸ urgencies_pairwise
  rcases List.mem_append.1 (hl ▸ mem_urgencies (s.route j).urgency) with hm | hm
  · exact absurd rfl (pollAt_none (hnone _ hm) hj)
  · rcases List.mem_cons.1 hm with he | hm
    · exact he.le
    · exact ((List.pairwise_cons.1 (List.pairwise_append.1 hp).2.1).1 _ hm).le

end

/-- Settles O21: the choice is taken as any offer is. -/
theorem pollTakesTheMostUrgent : Obligations.PollTakesTheMostUrgent := by
  unfold Obligations.PollTakesTheMostUrgent
  intro p s hr hp
  cases hc : pollChoice s p with
  | none =>
    refine ⟨fun _ => ?_, fun ⟨src, hsrc⟩ => absurd hsrc (pollChoice_none hc src)⟩
    exact exec_of_ready_online (c := .poll) hr hp rfl (by simp [effectOf, pollEffect, hc, answer])
  | some src =>
    obtain ⟨hcand, hmost, hfirst⟩ := pollChoice_some hc
    refine ⟨fun h => absurd hcand (h src),
      fun _ => ⟨src, takeSource p src .poll s, hcand, hmost, hfirst, takeSource_taken .., ?_⟩⟩
    exact exec_of_takeAnswer (c := .poll) hr hp rfl (by simp [effectOf, pollEffect, hc])

end Sys2Proof.Machine

/-! PROOFS. The commands that set a master's own fields, the hub settings, a signal queue or nothing, and those that
decline an offer: what each effect answers, case by case of its rule. -/

namespace Sys2Proof.Machine

open Sys2Proof.Safety

/-! Operands in range (R165) -/

theorem operandsOk_source {c : Code} (hc : c ∈ [Code.mask, .unmask, .bind, .unbind, .enable, .disable, .doneSrc,
    .readSrc, .readRoute]) (i : Source) : operandsOk c (.ofNat 8 i.val) 0 = true := by
  fin_cases hc <;> revert i <;> decide

theorem operandsOk_master {c : Code} (hc : c ∈ [Code.fence, .unfence, .status]) (m : Master) :
    operandsOk c (.ofNat 8 m.val) 0 = true := by
  fin_cases hc <;> revert m <;> decide

theorem operandsOk_thresh (t : Fin 9) : operandsOk .thresh (.ofNat 8 t.val) 0 = true := by revert t; decide

theorem operandsOk_readQ (g : SignalIndex) : operandsOk .readQ (.ofNat 8 g.val) 0 = true := by revert g; decide

theorem operandsOk_raise (g : SignalIndex) (b : BitVec 16) : operandsOk .raise (.ofNat 8 g.val) b = true := by
  show decide (BitVec.ofNat 8 g.val < 8) = true
  revert g
  decide

theorem operandsOk_readStack (m : Master) (i : Fin 8) :
    operandsOk .readStack (.ofNat 8 m.val) (.ofNat 16 i.val) = true := by revert m i; decide

/-! Declining an offer (R79, R81) -/

/-- Settles O22: OFFER_EXPIRY and PASS both lapse the offer. -/
theorem expiryAndPassEndTheOffer : Obligations.ExpiryAndPassEndTheOffer := by
  unfold Obligations.ExpiryAndPassEndTheOffer
  intro p s
  refine ⟨?offer, fun ho => ⟨?voidExpiry, fun hr hp => ?none⟩⟩
  case offer =>
    intro o ho u
    have hu : lapseOffer p o s = u := rfl
    refine ⟨fun hraised hn => ?expiry, fun hraised => ?notRaised, fun hr hp => ?pass⟩
    case expiry => simp [exec, execOfferExpiry, ho, hraised, (resetWaits_eq_false s).2 hn, hu]
    case notRaised => simp [exec, execOfferExpiry, ho, hraised]
    case pass => exact exec_of_ready_online (c := .pass) hr hp rfl (by simp [effectOf, passEffect, ho, hu, answer])
  case voidExpiry => simp [exec, execOfferExpiry, ho]
  case none => exact exec_of_ready_online (c := .pass) hr hp rfl (by simp [effectOf, passEffect, ho, answer])

/-! Masks, threshold and modes (R53 to R57) -/

section
variable {p : Master} {s : State}

theorem withdrawWhen_of_fails {fails : Offer → Bool} {o : Offer} (ho : s.offer p = some o) (hf : fails o = true) :
    withdrawWhen fails p s = dispatchPass (withdrawnOffer s p) := by
  simp [withdrawWhen, ho, hf, withdraw_eq_withdrawnOffer]

theorem withdrawWhen_of_suits {fails : Offer → Bool} (h : ∀ o, s.offer p = some o → fails o = false) :
    withdrawWhen fails p s = s := by
  unfold withdrawWhen
  split
  · next o ho => simp [h o ho]
  · rfl

theorem withdrawBelow_of_below {o : Offer} (ho : s.offer p = some o)
    (hu : (s.route o.source).urgency.val < (s.ctx p).threshold.val) : withdrawBelow p s = withdrawnOffer s p := by
  simp [withdrawBelow, ho, hu, withdraw_eq_withdrawnOffer]

theorem withdrawBelow_of_suits
    (h : ∀ o, s.offer p = some o → (s.ctx p).threshold.val ≤ (s.route o.source).urgency.val) :
    withdrawBelow p s = s := by
  unfold withdrawBelow
  split
  · next o ho => rw [if_neg (by have := h o ho; omega)]
  · rfl

end

/-- Settles O29: each effect by whether the caller's offer still suits. -/
theorem maskUnmaskThreshSetTheCaller : Obligations.MaskUnmaskThreshSetTheCaller := by
  unfold Obligations.MaskUnmaskThreshSetTheCaller
  intro p s hp
  refine ⟨?mask, fun src hr => ?unmask, ?thresh⟩
  case mask =>
    intro src hr u
    refine ⟨fun ho => ?own, fun ho => ?other⟩
    case own =>
      obtain ⟨o, ho, hs⟩ := ownOffer_iff.1 ho
      have hw := withdrawWhen_of_fails (s := u) (p := p) (fails := fun o => o.source == src) ho (by simp [hs])
      exact exec_of_ready_online (c := .mask) hr hp (operandsOk_source (by decide) src)
        (by simpa [effectOf, maskEffect, answer] using hw)
    case other =>
      have hw := withdrawWhen_of_suits (s := u) (p := p) (fails := fun o => o.source == src)
        fun o h => by simpa using fun hs => ho (ownOffer_iff.2 ⟨o, h, hs⟩)
      exact exec_of_ready_online (c := .mask) hr hp (operandsOk_source (by decide) src)
        (by simpa [effectOf, maskEffect, answer] using hw)
  case unmask =>
    exact exec_of_ready_online (c := .unmask) hr hp (operandsOk_source (by decide) src)
      (by simp [effectOf, unmaskEffect, answer])
  case thresh =>
    intro t hr u
    refine ⟨fun ⟨o, ho, hu⟩ => ?below, fun ho => ?suits⟩
    case below =>
      have hw := withdrawBelow_of_below (s := u) ho (by simpa [u] using hu)
      exact exec_of_ready_online (c := .thresh) hr hp (operandsOk_thresh t)
        (by simpa [effectOf, threshEffect, answer] using congrArg dispatchPass hw)
    case suits =>
      have hw := withdrawBelow_of_suits (s := u) (p := p) fun o h => by simpa [u] using ho o h
      exact exec_of_ready_online (c := .thresh) hr hp (operandsOk_thresh t)
        (by simpa [effectOf, threshEffect, answer] using congrArg dispatchPass hw)

/-- Settles O30: NEST and OPEN by the stack, QUIET by the offer record. -/
theorem modeCommandsSetTheCaller : Obligations.ModeCommandsSetTheCaller := by
  unfold Obligations.ModeCommandsSetTheCaller
  intro p s hp
  refine ⟨fun hr => ⟨fun h => ?nest, fun h => ?nestBusy⟩, fun hr => ⟨fun h => ?openMode, fun h => ?openBusy⟩,
    ?quiet, fun hr => ?loud⟩
  case nest | nestBusy =>
    exact exec_of_ready_online (c := .nest) hr hp rfl (by simp [effectOf, nestEffect, setNesting, h, answer])
  case openMode | openBusy =>
    exact exec_of_ready_online (c := .openMode) hr hp rfl (by simp [effectOf, openEffect, setNesting, h, answer])
  case quiet =>
    intro hr u
    refine ⟨fun h => ?offer, fun h => ?noOffer⟩
    case offer =>
      obtain ⟨o, ho⟩ := Option.ne_none_iff_exists'.1 h
      have hw := withdrawWhen_of_fails (s := u) (p := p) (fails := fun _ => true) ho rfl
      exact exec_of_ready_online (c := .quiet) hr hp rfl (by simpa [effectOf, quietEffect, answer] using hw)
    case noOffer =>
      have hw := withdrawWhen_of_suits (s := u) (p := p) (fails := fun _ => true)
        fun o ho => by rw [show u.offer p = none from h] at ho; contradiction
      exact exec_of_ready_online (c := .quiet) hr hp rfl (by simpa [effectOf, quietEffect, answer] using hw)
  case loud => exact exec_of_ready_online (c := .loud) hr hp rfl (by simp [effectOf, loudEffect, answer])

/-! Hub settings (R58, R84, R113, R124) -/

theorem soleMember_iff (s : State) (p : Master) : soleMember s p = true ↔ SoleMember s p := by
  simp only [soleMember, SoleMember, List.all_eq_true, mem_masters, true_implies, Bool.or_eq_true, beq_iff_eq]
  refine forall_congr' fun m => ?_
  by_cases hm : m = p
  · simp [hm]
  · cases (s.ctx m).portState <;> simp [hm]

/-- Every miss count is 0 after `clearMisses`, and nothing else changes (R124). -/
theorem clearMisses_ctx (s : State) (m : Master) : (clearMisses s).ctx m = { s.ctx m with missCount := 0 } := by
  match m with
  | 0 | 1 | 2 | 3 => simp [clearMisses, masters]

theorem clearMisses_eq (s : State) : { clearMisses s with contexts := s.contexts } = s := rfl

theorem operandsOk_setClass {c : Nat} (h1 : 1 ≤ c) (h3 : c ≤ 3) {t : BitVec 16} (ht : t ≠ 0) :
    operandsOk .setClass (.ofNat 8 c) (.ofNat 16 t.toNat) = true := by
  have hc : c = 1 ∨ c = 2 ∨ c = 3 := by omega
  rcases hc with rfl | rfl | rfl <;> simpa [operandsOk] using ht

theorem operandsOk_setFence {n : Nat} (h1 : 1 ≤ n) (h7 : n ≤ 7) : operandsOk .setFence (.ofNat 8 n) 0 = true := by
  interval_cases n <;> rfl

/-- SETCLASS of the sole member sets the limit of the class named (R113). -/
theorem exec_setClass_of_sole {p : Master} {s : State} {c : Nat} {t : BitVec 16} (h1 : 1 ≤ c) (h3 : c ≤ 3)
    (ht : t ≠ 0) (hp : (s.ctx p).portState = .online) (hr : HeadReady s p 0x0C c t.toNat 1) (hs : SoleMember s p) :
    exec (.setClass p) s =
      .next (replied (s.setSettings (setClassLimit ⟨c % 4, Nat.mod_lt _ (by decide)⟩ t s.settings)) p 0x0C .ok []) := by
  refine exec_of_ready_online (c := .setClass) hr hp (operandsOk_setClass h1 h3 ht) ?_
  have hc : c % 256 = c := Nat.mod_eq_of_lt (by omega)
  simp [effectOf, setClassEffect, (soleMember_iff s p).2 hs, answer, hc]

/-- Settles O31: each setting by the sole-member rule. -/
theorem hubSettingsNeedTheSoleMember : Obligations.HubSettingsNeedTheSoleMember := by
  unfold Obligations.HubSettingsNeedTheSoleMember
  intro p s hp
  refine ⟨fun t ht => ⟨fun hr hs => ?class1, fun hr hs => ?class2, fun hr hs => ?class3,
    fun c h1 h3 hr hs => ?notSole⟩, fun t hr => ⟨fun hs => ?offer, fun hs => ?offerNotSole⟩,
    fun n h1 h7 hr => ⟨fun hs => ?fence, fun hs => ?fenceNotSole⟩⟩
  case class1 => exact exec_setClass_of_sole (c := 1) (by decide) (by decide) ht hp hr hs
  case class2 => exact exec_setClass_of_sole (c := 2) (by decide) (by decide) ht hp hr hs
  case class3 => exact exec_setClass_of_sole (c := 3) (by decide) (by decide) ht hp hr hs
  case notSole =>
    exact exec_of_ready_online (c := .setClass) hr hp (operandsOk_setClass h1 h3 ht)
      (by simp [effectOf, setClassEffect, soleMember_iff, hs, answer])
  case offer =>
    exact exec_of_ready_online (c := .setOffer) hr hp rfl
      (by simp [effectOf, setOfferEffect, soleMember_iff, hs, answer])
  case offerNotSole =>
    exact exec_of_ready_online (c := .setOffer) hr hp rfl
      (by simp [effectOf, setOfferEffect, soleMember_iff, hs, answer])
  case fence =>
    refine ⟨clearMisses (s.setSettings { s.settings with fenceThreshold := n }), fun m => ?_, rfl, rfl, ?_⟩
    · simp [clearMisses_ctx]
    · have hn : n % 256 = n := Nat.mod_eq_of_lt (by omega)
      exact exec_of_ready_online (c := .setFence) hr hp (operandsOk_setFence h1 h7)
        (by simp [effectOf, setFenceEffect, soleMember_iff, hs, answer, hn])
  case fenceNotSole =>
    exact exec_of_ready_online (c := .setFence) hr hp (operandsOk_setFence h1 h7)
      (by simp [effectOf, setFenceEffect, soleMember_iff, hs, answer])

/-! RAISE (R133, R134) -/

/-- Settles O39, by the room in the queue and the state of the source. -/
theorem raiseAppendsASignal : Obligations.RaiseAppendsASignal := by
  unfold Obligations.RaiseAppendsASignal
  intro p g payload s hr hp src q
  refine ⟨fun hl hi => ?idle, fun hl hi => ?queued, fun hl => ?full⟩
  case idle | queued =>
    exact exec_of_ready_online (c := .raise) hr hp (operandsOk_raise g _)
      (by simp [effectOf, raiseEffect, Config.signalDepth, hl, src, hi, q, answer] at hi ⊢)
  case full =>
    exact exec_of_ready_online (c := .raise) hr hp (operandsOk_raise g _)
      (by simp [effectOf, raiseEffect, Config.signalDepth, Nat.not_lt.2 hl, answer])

/-! Queries and NOTICE (R17, R35, R59, R60, R110, R142, R162) -/

/-- A query is accepted in every port state (R40). -/
theorem portStateRefusal_query {c : Code} (hc : isQuery c = true) (ps : PortState) :
    portStateRefusal c ps = none := by
  cases ps <;> simp [portStateRefusal, hc]

/-- A ready query is answered with its data words, and nothing else changes. -/
theorem exec_query {p : Master} {s : State} {c : Code} {a b : Nat} {data : List Word} (hc : isQuery c = true)
    (hr : HeadReady s p (codeByte c).toNat a b (reservedWords c)) (ho : operandsOk c (.ofNat 8 a) (.ofNat 16 b) = true)
    (he : effectOf c p (.ofNat 8 a) (.ofNat 16 b) s = answerData data s) :
    exec (Instr.execution p c) s = .next (replied s p (codeByte c).toNat .ok data) :=
  exec_of_ready hr ho (portStateRefusal_query hc _) he

/-- Settles O41, query by query. -/
theorem queriesAnswerAndChangeNothing : Obligations.QueriesAnswerAndChangeNothing := by
  unfold Obligations.QueriesAnswerAndChangeNothing
  intro p s
  refine ⟨fun m hr => ?status, fun m first hr => ?readStack, fun src hr => ?readSrc, fun src hr => ?readRoute,
    fun g hr => ?readQ, fun hr => ?time⟩
  case status =>
    exact exec_query (c := .status) rfl hr (operandsOk_master (by decide) m) (by simp [effectOf, statusEffect])
  case readStack =>
    have hf : first.val % 65536 = first.val := Nat.mod_eq_of_lt (by omega)
    exact exec_query (c := .readStack) rfl hr (operandsOk_readStack m first)
      (by simp [effectOf, readStackEffect, Config.readStackEntries, dueWord, hf])
  case readSrc =>
    exact exec_query (c := .readSrc) rfl hr (operandsOk_source (by decide) src) (by simp [effectOf, readSrcEffect])
  case readRoute =>
    exact exec_query (c := .readRoute) rfl hr (operandsOk_source (by decide) src)
      (by simp [effectOf, readRouteEffect])
  case readQ => exact exec_query (c := .readQ) rfl hr (operandsOk_readQ g) (by simp [effectOf, readQEffect])
  case time => exact exec_query (c := .time) rfl hr rfl rfl

/-- Settles O42, by whether a notice waits. -/
theorem noticeReturnsTheOldest : Obligations.NoticeReturnsTheOldest := by
  unfold Obligations.NoticeReturnsTheOldest
  intro p s hr
  refine ⟨fun n rest h => ?some, fun h => ?none⟩
  case some | none =>
    have he := exec_of_ready (c := .notice) hr rfl (portStateRefusal_query rfl _)
      (by simp only [effectOf, noticeEffect, h]; rfl)
    rw [show Instr.execution p .notice = .notice p from rfl] at he
    rw [he]
    simp [popNotice, repliedPort, h, codeByte]

end Sys2Proof.Machine

/-! PROOFS. The route table's commands (R19 to R32): the operands read back, the permission, the withdrawals that a
changed route brings, and the answer of each command. -/

namespace Sys2Proof.Machine

open Sys2Proof.Safety

/-! Operands of the route table's commands (R165) -/

theorem operandsOk_heir (i : Source) (m : Fin 5) : operandsOk .heir (.ofNat 8 i.val) (.ofNat 16 m.val) = true := by
  revert i m; decide

theorem operandsOk_urge (i : Source) (u : Urgency) : operandsOk .urge (.ofNat 8 i.val) (.ofNat 16 u.val) = true := by
  revert i u; decide

theorem operandsOk_trig (n : Line) (t : Fin 2) :
    operandsOk .trig (.ofNat 8 (lineSource n).val) (.ofNat 16 t.val) = true := by revert n t; decide

theorem operandsOk_auto (i : Source) (t : Fin 2) : operandsOk .auto (.ofNat 8 i.val) (.ofNat 16 t.val) = true := by
  revert i t; decide

theorem operandsOk_limit (i : Source) (c : Fin 4) : operandsOk .limit (.ofNat 8 i.val) (.ofNat 16 c.val) = true := by
  revert i c; decide

theorem heirOf_ofNat (m : Master) : heirOf (.ofNat 16 m.val) = some m := by revert m; decide

/-- Operand B of ROUTE for targets and a policy. -/
abbrev routeOperand (targets : MasterSet) (policy : Policy) : Nat :=
  targets.toNat + 16 * (match policy with | .fixed => 0 | .rotate => 1 | .least => 2)

theorem targetsOf_routeOperand (targets : MasterSet) (policy : Policy) :
    targetsOf (.ofNat 16 (routeOperand targets policy)) = targets := by
  cases policy <;> revert targets <;> decide

theorem policyOf_routeOperand (targets : MasterSet) (policy : Policy) :
    policyOf (.ofNat 16 (routeOperand targets policy)) = policy := by
  cases policy <;> revert targets <;> decide

theorem operandsOk_route (i : Source) (targets : MasterSet) (policy : Policy) :
    operandsOk .route (.ofNat 8 i.val) (.ofNat 16 (routeOperand targets policy)) = true := by
  have hb : BitVec.ofNat 16 (routeOperand targets policy) < 0x30 := by cases policy <;> revert targets <;> decide
  have ha : BitVec.ofNat 8 i.val < 32 := by revert i; decide
  simp only [operandsOk, Bool.and_eq_true, decide_eq_true_eq]
  exact ⟨ha, hb⟩

/-! The binding (R20 to R22) -/

section
variable {p : Master} {s : State} {src : Source}

theorem configured_of_binder (h : (s.route src).binder = some p) (needsBinder : Bool) (own : Answer) :
    configured needsBinder p src s own = own := by simp [configured, permissionRefusal, h]

theorem configured_of_notOwner {m : Master} (h : (s.route src).binder = some m) (hm : m ≠ p) (needsBinder : Bool)
    (own : Answer) : configured needsBinder p src s own = answer .notOwner s := by
  simp [configured, permissionRefusal, h, hm]

theorem configured_of_unbound (h : (s.route src).binder = none) (own : Answer) :
    configured true p src s own = answer .state s := by simp [configured, permissionRefusal, h]

end

/-- Settles O32: BIND by the binder that stands, UNBIND and HEIR of the binder. -/
theorem bindUnbindHeirChangeTheBinding : Obligations.BindUnbindHeirChangeTheBinding := by
  unfold Obligations.BindUnbindHeirChangeTheBinding
  intro p src s hp
  refine ⟨fun hr => ⟨fun h => ?bind, fun h => ?bound, fun m h hm => ?notOwner⟩, fun hr h => ?unbind,
    fun m hr h => ⟨fun hm => ?self, fun hm => ?heir⟩, fun hr h => ?noHeir⟩
  case bind | bound =>
    exact exec_of_ready_online (c := .bind) hr hp (operandsOk_source (by decide) src)
      (by simp [effectOf, bindEffect, h, answer])
  case notOwner =>
    exact exec_of_ready_online (c := .bind) hr hp (operandsOk_source (by decide) src)
      (by simp [effectOf, bindEffect, h, hm, answer])
  case unbind =>
    exact exec_of_ready_online (c := .unbind) hr hp (operandsOk_source (by decide) src)
      (by simp [effectOf, unbindEffect, configured_of_binder h, answer])
  case self | heir =>
    exact exec_of_ready_online (c := .heir) hr hp (operandsOk_heir src m.castSucc)
      (by simp [effectOf, heirEffect, configured_of_binder h, heirOf_ofNat, hm, answer])
  case noHeir =>
    exact exec_of_ready_online (c := .heir) hr hp (operandsOk_heir src 4)
      (by simp [effectOf, heirEffect, configured_of_binder h, heirOf, answer])

/-! The withdrawals that a changed route brings (R25, R26) -/

section
variable {s : State} {src : Source} {m : Master}

theorem withdrawNonTarget_of_nonTarget (h : (s.tracker src).state = .offered) (hm : (s.tracker src).holder = some m)
    (ht : setHas (s.route src).targets m = false) :
    withdrawNonTarget src s = (s.setTracker src (waiting (s.tracker src))).setOffer m none := by
  simp [withdrawNonTarget, hm, ht, withdrawSource_of_offered h hm]

theorem withdrawNonTarget_of_stands
    (h : (s.tracker src).state ≠ .offered ∨
      ∃ m, (s.tracker src).holder = some m ∧ setHas (s.route src).targets m = true) :
    withdrawNonTarget src s = s := by
  unfold withdrawNonTarget
  split
  · next k hk =>
    rcases h with h | ⟨m, hm, ht⟩
    · rw [withdrawSource_of_not_offered h, ite_self]
    · obtain rfl : m = k := Option.some.inj (hm.symm.trans hk)
      rw [if_pos ht]
  · rfl

/-- The test of R26 is the failure of the threshold condition or of the nesting condition. -/
theorem unurgent_iff {u : Urgency} {c : Context} :
    (decide (u.val < c.threshold.val) || !aboveLevel u c) = true ↔ ¬ UrgencySuits u c := by
  rw [UrgencySuits, ← aboveLevel_iff, Bool.or_eq_true, decide_eq_true_eq, Bool.not_eq_true', not_and_or, not_le,
    Bool.not_eq_true]

theorem withdrawUnurgent_of_unurgent (h : (s.tracker src).state = .offered) (hm : (s.tracker src).holder = some m)
    (hu : ¬ UrgencySuits (s.route src).urgency (s.ctx m)) :
    withdrawUnurgent src s = (s.setTracker src (waiting (s.tracker src))).setOffer m none := by
  simp only [withdrawUnurgent, hm, unurgent_iff.2 hu, if_true, withdrawSource_of_offered h hm]

theorem withdrawUnurgent_of_stands
    (h : (s.tracker src).state ≠ .offered ∨
      ∃ m, (s.tracker src).holder = some m ∧ UrgencySuits (s.route src).urgency (s.ctx m)) :
    withdrawUnurgent src s = s := by
  unfold withdrawUnurgent
  split
  · next k hk =>
    rcases h with h | ⟨m, hm, hu⟩
    · rw [withdrawSource_of_not_offered h, ite_self]
    · obtain rfl : m = k := Option.some.inj (hm.symm.trans hk)
      rw [if_neg fun hn => unurgent_iff.1 hn hu]
  · rfl

end

/-- Settles O33: the withdrawal, or not, of the offer of the changed route, then the pass. -/
theorem routeReplacesTargetsAndPolicy : Obligations.RouteReplacesTargetsAndPolicy := by
  unfold Obligations.RouteReplacesTargetsAndPolicy
  intro p src targets policy s hr hp hm r t
  have row {u : State} (hw : withdrawNonTarget src (r.setTracker src t) = u) :
      exec (.route p) s = .next (replied (dispatchPass u) p 0x12 .ok []) := by
    refine exec_of_ready_online (c := .route) (b := routeOperand targets policy) hr hp (operandsOk_route ..) ?_
    simp only [effectOf, routeEffect, sourceOf_ofNat, configured_of_mayConfigure hm, targetsOf_routeOperand,
      policyOf_routeOperand]
    exact congrArg (fun u => answer .ok (dispatchPass u)) hw
  refine ⟨fun m h hh ht => row ?nonTarget, fun h => row ?stands⟩
  case nonTarget =>
    have hw := withdrawNonTarget_of_nonTarget (s := r.setTracker src t) (src := src) (m := m)
    simp only [setTracker_tracker_self, setTracker_route, r, setRoute_route_self, setTracker_setTracker] at hw
    exact hw h hh ht
  case stands => exact withdrawNonTarget_of_stands (by simpa [t, r] using h)

/-- Settles O34: the withdrawal, or not, of the offer of the changed route, then the pass. -/
theorem urgeReplacesTheUrgency : Obligations.UrgeReplacesTheUrgency := by
  unfold Obligations.UrgeReplacesTheUrgency
  intro p src u s hr hp hm r
  have row {v : State} (hw : withdrawUnurgent src r = v) :
      exec (.urge p) s = .next (replied (dispatchPass v) p 0x13 .ok []) := by
    refine exec_of_ready_online (c := .urge) hr hp (operandsOk_urge src u) ?_
    simp only [effectOf, urgeEffect, sourceOf_ofNat, configured_of_mayConfigure hm, urgencyOf_ofNat]
    exact congrArg (fun u => answer .ok (dispatchPass u)) hw
  refine ⟨fun m h hh hu => row ?unurgent, fun h => row ?stands⟩
  case unurgent => exact withdrawUnurgent_of_unurgent (s := r) h hh (by simpa [r] using hu)
  case stands => exact withdrawUnurgent_of_stands (by simpa [r] using h)

/-! TRIG, AUTO, LIMIT, ENABLE, DISABLE (R27 to R32) -/

theorem trigBusy_iff {src : Source} {s : State} :
    trigBusy src s = true ↔
      (s.route src).enabled = true ∨ (s.tracker src).state = .offered ∨ (s.tracker src).state = .inService := by
  simp [trigBusy, or_assoc]

/-- Settles O35: the refusals in their order, then the recomputed state. -/
theorem trigRecomputesThePendingState : Obligations.TrigRecomputesThePendingState := by
  unfold Obligations.TrigRecomputesThePendingState
  intro p n s hp hm src t busy
  have row (b : Fin 2) (hr : HeadReady s p 0x14 src.val b.val 1) {st : Status} {u : State}
      (he : (if trigBusy src s then answer .busy s
        else if triggerOf (.ofNat 16 b.val) = .level ∧ (s.route src).autodone = true then answer .badCombo s
        else
          let s1 := (s.setRoute src { s.route src with trigger := triggerOf (.ofNat 16 b.val) }).setTracker src
            (t.retrigger (triggerOf (.ofNat 16 b.val)))
          answer .ok (if t.state = .idle ∧ (s1.tracker src).state = .pending then dispatchPass s1 else s1)) =
        answer st u) : exec (.trig p) s = .next (replied u p 0x14 st []) := by
    refine exec_of_ready_online (c := .trig) hr hp (operandsOk_trig n b) ?_
    simp only [effectOf, trigEffect]
    rw [sourceOf_ofNat, configured_of_mayConfigure hm]
    exact he
  have hbusy : trigBusy src s = true ↔ busy := trigBusy_iff
  refine ⟨fun hr => ⟨fun h => row 0 hr ?edgeBusy, fun h => row 0 hr ?edge⟩, ?level⟩
  case edgeBusy => simp [hbusy, h]
  case edge => simp [hbusy, h, triggerOf, Tracker.retrigger, Tracker.toIdle, idled]
  case level =>
    intro hr r pending
    refine ⟨fun h => row 1 hr ?busy, fun h ha => row 1 hr ?combo, fun h ha hl => row 1 hr ?low,
      fun h ha hl hs => row 1 hr ?pending, fun h ha hl hs => row 1 hr ?idle⟩
    case busy => simp [hbusy, h]
    case combo => simp [hbusy, h, ha, triggerOf]
    case low => simp [hbusy, h, ha, hl, triggerOf, Tracker.retrigger, Tracker.toIdle, idled, r]
    case pending => simp [hbusy, h, ha, hl, hs, triggerOf, Tracker.retrigger, Tracker.toPending, r, pending]
    case idle => simp [hbusy, h, ha, hl, hs, triggerOf, Tracker.retrigger, Tracker.toPending, r, pending]

/-- Settles O36: the refusals of AUTO in their order, and the fields set. -/
theorem autoAndLimitSetTheRoute : Obligations.AutoAndLimitSetTheRoute := by
  unfold Obligations.AutoAndLimitSetTheRoute
  intro p src s hp hm
  refine ⟨fun hr => ⟨fun h => ?offBusy, fun h => ?off⟩,
    fun hr => ⟨fun h => ?onBusy, fun h ht => ?combo, fun h ht => ?on⟩, fun c hr => ?limit⟩
  case offBusy | off =>
    exact exec_of_ready_online (c := .auto) hr hp (operandsOk_auto src 0)
      (by simp [effectOf, autoEffect, configured_of_mayConfigure hm, h, answer])
  case onBusy =>
    exact exec_of_ready_online (c := .auto) hr hp (operandsOk_auto src 1)
      (by simp [effectOf, autoEffect, configured_of_mayConfigure hm, h, answer])
  case combo | on =>
    exact exec_of_ready_online (c := .auto) hr hp (operandsOk_auto src 1)
      (by simp [effectOf, autoEffect, configured_of_mayConfigure hm, h, ht, answer])
  case limit =>
    exact exec_of_ready_online (c := .limit) hr hp (operandsOk_limit src c)
      (by simp [effectOf, limitEffect, configured_of_mayConfigure hm, answer])

/-- Settles O37: DISABLE by whether the source is OFFERED. -/
theorem enableAndDisableSetTheRoute : Obligations.EnableAndDisableSetTheRoute := by
  unfold Obligations.EnableAndDisableSetTheRoute
  intro p src s hp hm
  refine ⟨fun hr => ?enable, ?disable⟩
  case enable =>
    exact exec_of_ready_online (c := .enable) hr hp (operandsOk_source (by decide) src)
      (by simp [effectOf, enableEffect, configured_of_mayConfigure hm, answer])
  case disable =>
    intro hr r
    refine ⟨fun m h hh => ?offered, fun h => ?other⟩
    case offered =>
      exact exec_of_ready_online (c := .disable) hr hp (operandsOk_source (by decide) src)
        (by simp [effectOf, disableEffect, configured_of_mayConfigure hm, h,
          withdrawSource_of_offered (s := s.setRoute src { s.route src with enabled := false }) h hh, answer, r])
    case other =>
      exact exec_of_ready_online (c := .disable) hr hp (operandsOk_source (by decide) src)
        (by simp [effectOf, disableEffect, configured_of_mayConfigure hm, h, answer, r])

/-! The permission of every configuration command (R19) -/

/-- The source whose route a configuration command with operand A `a` names. -/
def configuredSource (c : Code) (a : BitVec 8) : Source :=
  if c = .flush then signalSource (signalOf a) else sourceOf a

/-- Every configuration command passes the permission of its route before its own answer. -/
theorem effectOf_configured {c : Code} (hc : c ∈ configurationCodes) (p : Master) (a : BitVec 8) (b : BitVec 16)
    (s : State) :
    ∃ own, effectOf c p a b s = configured (decide (c = .heir ∨ c = .unbind)) p (configuredSource c a) s own := by
  fin_cases hc <;> exact ⟨_, rfl⟩

/-- Settles O38: the permission is refused before the command's own answer. -/
theorem configurationNeedsTheBinder : Obligations.ConfigurationNeedsTheBinder := by
  unfold Obligations.ConfigurationNeedsTheBinder
  intro p c w s hc hw hcode hok hroom hn hp src
  obtain ⟨rest, hq⟩ := List.head?_eq_some_iff.1 hw
  have hwords : reservedWords c = 1 := by fin_cases hc <;> rfl
  obtain ⟨own, hown⟩ := effectOf_configured hc p (operandA w) (operandB w) s
  have row {st : Status} (he : effectOf c p (operandA w) (operandB w) s = answer st s) :
      exec (Instr.execution p c) s = .next (replied s p (codeByte c).toNat st []) := by
    rw [exec_execution, executeCommand_eq_reply ((resetWaits_eq_false s).2 hn) hq hcode (by rw [hwords]; exact hroom)]
    simp only [answerCommand, hok, hp, portStateRefusal_online, he, if_true]
    rfl
  refine ⟨fun m h hm => row ?notOwner, fun h hneed => row ?unbound⟩
  case notOwner => exact hown.trans (configured_of_notOwner h hm _ own)
  case unbound =>
    rw [hown, decide_eq_true hneed]
    exact configured_of_unbound h own

end Sys2Proof.Machine

/-! PROOFS. The layouts of words (R165 to R170): a word is a union of fields, and each field is read back from its own
place and is zero elsewhere. -/

namespace Sys2Proof.Machine

open Sys2Proof.Safety

/-! One field -/

section
variable {low width v start len j : Nat}

theorem getLsbD_field :
    (field low width v).getLsbD j =
      (decide (j < 32) && decide (low ≤ j) && (BitVec.ofNat width v).getLsbD (j - low)) := by
  unfold field
  rw [BitVec.getLsbD_shiftLeft, BitVec.getLsbD_setWidth]
  by_cases h : j < low
  · simp [h]
  · by_cases hj : j < 32
    · simp [hj, show j - low < 32 by omega, h, Nat.not_lt.1 h]
    · simp [hj]

theorem extract_field_same (h : low + width ≤ 32) :
    (field low width v).extractLsb' low width = BitVec.ofNat width v := by
  ext i hi
  rw [BitVec.getElem_extractLsb', getLsbD_field, ← BitVec.getLsbD_eq_getElem]
  simp [show low + i < 32 by omega]

theorem extract_field_apart (h : start + len ≤ low ∨ low + width ≤ start) :
    (field low width v).extractLsb' start len = 0#len := by
  ext i hi
  rw [BitVec.getElem_extractLsb', getLsbD_field, BitVec.getElem_zero]
  rcases h with h | h
  · simp [show ¬ low ≤ start + i by omega]
  · simp [BitVec.getLsbD_of_ge _ _ (show width ≤ start + i - low by omega)]

theorem getElem_field_apart {hj : j < 32} (h : j < low ∨ low + width ≤ j) : (field low width v)[j] = false := by
  rw [← BitVec.getLsbD_eq_getElem, getLsbD_field]
  rcases h with h | h
  · simp [show ¬ low ≤ j by omega]
  · simp [BitVec.getLsbD_of_ge _ _ (show width ≤ j - low by omega)]

theorem getElem_flag_same (h : low < 32) (x : Bool) : (flag low x)[low] = x := by
  rw [← BitVec.getLsbD_eq_getElem, flag, getLsbD_field]
  cases x <;> simp [h]

theorem getElem_flag_apart {hj : j < 32} (h : j < low ∨ low < j) (x : Bool) : (flag low x)[j] = false :=
  getElem_field_apart (by omega)

theorem extract_flag_apart (h : start + len ≤ low ∨ low < start) (x : Bool) :
    (flag low x).extractLsb' start len = 0#len := extract_field_apart (by omega)

end

/-- A master number that may be absent, absent as 0. -/
def masterNumber (o : Option Master) : Nat := o.elim 0 Fin.val

theorem masterField_eq_field (low : Nat) (o : Option Master) : masterField low o = field low 2 (masterNumber o) := by
  cases o with
  | none => simp [masterField, masterNumber, field]
  | some m => rfl

theorem masterNumber_mod (o : Option Master) : masterNumber o % 4 = masterNumber o := by
  cases o with
  | none => rfl
  | some m => exact Nat.mod_eq_of_lt m.isLt

/-! The header, the take word and the entry word -/

theorem statusValue_lt (st : Status) : statusValue st < 32 := by cases st <;> decide

/-- The bits of the reply header (R167). -/
theorem headerWord_bits (code : BitVec 8) (st : Status) {count : Nat} (overrun lost : Bool) (h : count ≤ 8) :
    let w := headerWord code st count overrun lost
    w.extractLsb' 24 8 = code ∧ w.extractLsb' 21 3 = 0 ∧ (w.extractLsb' 16 5).toNat = statusValue st ∧
      (w.extractLsb' 12 4).toNat = count ∧ w.getLsbD 11 = overrun ∧ w.getLsbD 10 = lost ∧ w.extractLsb' 0 10 = 0 := by
  have hst := Nat.mod_eq_of_lt (statusValue_lt st)
  have hc : count % 16 = count := Nat.mod_eq_of_lt (by omega)
  simp (disch := omega) [headerWord, BitVec.extractLsb'_or, extract_field_same, extract_field_apart,
    extract_flag_apart, getElem_field_apart, getElem_flag_same, getElem_flag_apart, hst, hc]

/-- The bits that the take word and the stack entry word share (R168). -/
theorem takeFields_bits (e : Entry) (x : Bool) :
    let w := flag 31 x ||| takeFields e
    w.getLsbD 31 = x ∧ (w.extractLsb' 26 5).toNat = e.source.val ∧ (w.extractLsb' 23 3).toNat = e.urgency.val ∧
      w.getLsbD 22 = e.merged ∧ (w.extractLsb' 20 2).toNat = viaValue e.via ∧
      (w.extractLsb' 18 2).toNat = (match e.signal with | some g => g.sender.val | none => 0) ∧
      w.extractLsb' 16 2 = 0 ∧ w.extractLsb' 0 16 = (match e.signal with | some g => g.payload | none => 0) := by
  have hv : viaValue e.via % 4 = viaValue e.via := by cases e.via <;> rfl
  cases he : e.signal <;>
    simp (disch := omega) [takeFields, he, BitVec.extractLsb'_or, extract_field_same, extract_field_apart,
      extract_flag_apart, getElem_field_apart, getElem_flag_same, getElem_flag_apart, hv]

/-- Settles O43, field by field. -/
theorem headerAndTakeWordBits : Obligations.HeaderAndTakeWordBits := by
  unfold Obligations.HeaderAndTakeWordBits
  refine ⟨fun code st count overrun lost h => ?header, fun e => ?entry⟩
  case header =>
    obtain ⟨hcode, hres, hst, rest⟩ := headerWord_bits code st overrun lost h
    exact ⟨hcode, hres, hst.trans (by cases st <;> rfl), rest⟩
  case entry =>
    refine ⟨(takeFields_bits e true).1, (takeFields_bits e _).1, fun w hw => ?_⟩
    obtain ⟨x, rfl⟩ : ∃ x, w = flag 31 x ||| takeFields e := by
      rcases hw with rfl | rfl <;> exact ⟨_, rfl⟩
    obtain ⟨-, hsrc, hurg, hmer, hvia, rest⟩ := takeFields_bits e x
    exact ⟨hsrc, hurg, hmer, hvia.trans (by cases e.via <;> rfl), rest⟩

/-! The query words and the port status word -/

theorem trackerWord_bits (src : Source) (t : Tracker) :
    let w := trackerWord src t
    w.extractLsb' 29 3 = 0 ∧ (w.extractLsb' 24 5).toNat = src.val ∧ w.extractLsb' 12 12 = 0 ∧
    w.extractLsb' 8 4 = t.passSet ∧ w.getLsbD 7 = (decide (src.val < 24) && t.line) ∧ w.getLsbD 6 = t.again ∧
    w.getLsbD 5 = t.merged ∧ (w.extractLsb' 3 2).toNat = masterNumber t.holder ∧
    w.getLsbD 2 = t.holder.isSome ∧ (w.extractLsb' 0 2).toNat = srcStateValue t.state := by
  have hs : srcStateValue t.state % 4 = srcStateValue t.state := by cases t.state <;> rfl
  simp (disch := omega) [trackerWord, isLineSource, BitVec.extractLsb'_or, extract_field_same, extract_field_apart,
    extract_flag_apart, getElem_field_apart, getElem_flag_same, getElem_flag_apart, masterField_eq_field,
    masterNumber_mod, hs]

theorem routeWord_bits (src : Source) (r : Route) :
    let w := routeWord src r
    w.extractLsb' 29 3 = 0 ∧ (w.extractLsb' 24 5).toNat = src.val ∧ w.extractLsb' 22 2 = 0 ∧
    (w.extractLsb' 20 2).toNat = r.last.val ∧
    (w.extractLsb' 18 2).toNat = masterNumber r.heir ∧ w.getLsbD 17 = r.heir.isSome ∧
    (w.extractLsb' 15 2).toNat = masterNumber r.binder ∧
    w.getLsbD 14 = r.binder.isSome ∧ w.getLsbD 13 = r.enabled ∧ (w.extractLsb' 11 2).toNat = r.limitClass.val ∧
    w.getLsbD 10 = r.autodone ∧ w.getLsbD 9 = (decide (src.val < 24) && (r.trigger == .level)) ∧
    (w.extractLsb' 6 3).toNat = r.urgency.val ∧ (w.extractLsb' 4 2).toNat = policyValue r.policy ∧
    w.extractLsb' 0 4 = r.targets := by
  have hp : policyValue r.policy % 4 = policyValue r.policy := by cases r.policy <;> rfl
  simp (disch := omega) [routeWord, isLineSource, BitVec.extractLsb'_or, extract_field_same, extract_field_apart,
    extract_flag_apart, getElem_field_apart, getElem_flag_same, getElem_flag_apart, masterField_eq_field,
    masterNumber_mod, hp]

theorem portStateValue_mod (ps : PortState) : portStateValue ps % 4 = portStateValue ps := by cases ps <;> rfl

theorem statusWord_bits (m : Master) (c : Context) (o : Option Offer) (hr : c.reclaimed.length ≤ 8)
    (hs : c.stack.length ≤ 8) (hm : c.missCount ≤ 7) :
    let w := statusWord m c o
    w.extractLsb' 30 2 = 0 ∧ (w.extractLsb' 28 2).toNat = m.val ∧ w.extractLsb' 25 3 = 0 ∧
    (w.extractLsb' 21 4).toNat = c.reclaimed.length ∧
    (w.extractLsb' 16 5).toNat = (match o with | some x => x.source.val | none => 0) ∧ w.getLsbD 15 = o.isSome ∧
    (w.extractLsb' 12 3).toNat = c.missCount ∧ (w.extractLsb' 8 4).toNat = c.stack.length ∧
    w.getLsbD 7 = (c.lineMode == .quiet) ∧ w.getLsbD 6 = (c.nesting == .openMode) ∧
    (w.extractLsb' 2 4).toNat = c.threshold.val ∧ (w.extractLsb' 0 2).toNat = portStateValue c.portState := by
  have hr' : c.reclaimed.length % 16 = c.reclaimed.length := Nat.mod_eq_of_lt (by omega)
  have hs' : c.stack.length % 16 = c.stack.length := Nat.mod_eq_of_lt (by omega)
  have hm' : c.missCount % 8 = c.missCount := Nat.mod_eq_of_lt (by omega)
  have ht' : c.threshold.val % 16 = c.threshold.val := Nat.mod_eq_of_lt (by omega)
  cases o <;>
    simp (disch := omega) [statusWord, BitVec.extractLsb'_or, extract_field_same, extract_field_apart,
      extract_flag_apart, getElem_field_apart, getElem_flag_same, getElem_flag_apart, hr', hs', hm', ht',
      portStateValue_mod]

theorem queueCountWord_bits (g : SignalIndex) {q : List Signal} (hq : q.length ≤ 4) :
    let w := queueCountWord g q
    w.extractLsb' 27 5 = 0 ∧ (w.extractLsb' 24 3).toNat = g.val ∧ w.extractLsb' 3 21 = 0 ∧
      (w.extractLsb' 0 3).toNat = q.length := by
  have hq' : q.length % 8 = q.length := Nat.mod_eq_of_lt (by omega)
  simp (disch := omega) [queueCountWord, BitVec.extractLsb'_or, extract_field_same, extract_field_apart, hq']

theorem signalWord_bits (e : Signal) :
    (signalWord e).extractLsb' 18 14 = 0 ∧ ((signalWord e).extractLsb' 16 2).toNat = e.sender.val ∧
      (signalWord e).extractLsb' 0 16 = e.payload := by
  simp (disch := omega) [signalWord, BitVec.extractLsb'_or, extract_field_same, extract_field_apart]

theorem noticeWord_value (m : Master) (src : Source) (charged : Bool) :
    noticeWord (.joined m) = BitVec.ofNat 32 (16 * m.val + 1) ∧
    noticeWord (.left m) = BitVec.ofNat 32 (16 * m.val + 2) ∧
    noticeWord (.fenced m) = BitVec.ofNat 32 (16 * m.val + 3) ∧
    noticeWord (.reclaimed src charged) = BitVec.ofNat 32 (32768 * charged.toNat + 256 * src.val + 4) ∧
    noticeWord (.inherited src) = BitVec.ofNat 32 (256 * src.val + 5) := by
  refine ⟨?_, ?_, ?_, ?_, ?_⟩
  · revert m; decide
  · revert m; decide
  · revert m; decide
  · revert src charged; decide
  · revert src; decide

/-- Settles O44, word by word. -/
theorem queryWordBits : Obligations.QueryWordBits := by
  unfold Obligations.QueryWordBits
  refine ⟨fun src t => ?tracker, fun src r => ?route, fun m c o hr hs hm => ?context,
    fun g _ hq => queueCountWord_bits g hq, signalWord_bits, noticeWord_value⟩
  case tracker =>
    obtain ⟨h1, h2, h3, h4, h5, h6, h7, hholder, h9, hstate⟩ := trackerWord_bits src t
    exact ⟨h1, h2, h3, h4, h5, h6, h7, hholder.trans (by cases t.holder <;> rfl), h9,
      hstate.trans (by cases t.state <;> rfl)⟩
  case route =>
    obtain ⟨h1, h2, h3, h4, hheir, h6, hbinder, h8, h9, h10, h11, h12, h13, hpolicy, h15⟩ := routeWord_bits src r
    exact ⟨h1, h2, h3, h4, hheir.trans (by cases r.heir <;> rfl), h6, hbinder.trans (by cases r.binder <;> rfl), h8,
      h9, h10, h11, h12.trans (by cases r.trigger <;> rfl), h13, hpolicy.trans (by cases r.policy <;> rfl), h15⟩
  case context =>
    obtain ⟨h1, h2, h3, h4, h5, h6, h7, h8, hline, hnest, h11, hstate⟩ := statusWord_bits m c o hr hs hm
    exact ⟨h1, h2, h3, h4, h5, h6, h7, h8, hline.trans (by cases c.lineMode <;> rfl),
      hnest.trans (by cases c.nesting <;> rfl), h11, hstate.trans (by cases c.portState <;> rfl)⟩

/-- The bits of the port status word (R170). -/
theorem portStatusWord_bits (s : State) (p : Master) (hn : (s.port p).notices.length ≤ 8)
    (hr : (s.port p).replies.length ≤ 16) (hc : (s.port p).commands.length ≤ 4) :
    let w := portStatusWord s p
    w.extractLsb' 29 3 = 0 ∧ w.getLsbD 28 = (s.port p).overrun ∧ w.extractLsb' 24 4 = 0 ∧
      (w.extractLsb' 20 4).toNat = (s.port p).notices.length ∧ w.extractLsb' 18 2 = 0 ∧
      (w.extractLsb' 16 2).toNat = portStateValue (s.ctx p).portState ∧
      w.extractLsb' 13 3 = 0 ∧ w.getLsbD 12 = s.intq p ∧ w.extractLsb' 9 3 = 0 ∧
      (w.extractLsb' 4 5).toNat = (s.port p).replies.length ∧ w.getLsbD 3 = false ∧
      (w.extractLsb' 0 3).toNat + (s.port p).commands.length = 4 := by
  have hn' : (s.port p).notices.length % 16 = (s.port p).notices.length := Nat.mod_eq_of_lt (by omega)
  have hr' : (s.port p).replies.length % 32 = (s.port p).replies.length := Nat.mod_eq_of_lt (by omega)
  have hc' : (4 - (s.port p).commands.length) % 8 + (s.port p).commands.length = 4 := by omega
  simp (disch := omega) [portStatusWord, Config.commandDepth, BitVec.extractLsb'_or, extract_field_same,
    extract_field_apart, extract_flag_apart, getElem_field_apart, getElem_flag_same, getElem_flag_apart, hn', hr',
    hc', portStateValue_mod]

/-- A bus word of an open window is the offset's own. -/
theorem busWord_of_open {s : State} {p : Master} (h : ReadsOpen s p) (own : Word) : busWord s p own = some own := by
  have hw : windowHeld s p = false := Bool.eq_false_iff.2 fun hw => h.1 ((windowHeld_iff s p).1 hw)
  simp [busWord, hw, h.2]

/-- A bus word of a port held in reset is zero (R50, R159). -/
theorem busWord_of_held {s : State} {p : Master} (h : ResetHeld s p) (own : Word) : busWord s p own = some 0 := by
  simp [busWord, (windowHeld_iff s p).2 h]

/-- Settles O45: the word's fields while the window answers, and zero while it is held. -/
theorem portStatusWordBits : Obligations.PortStatusWordBits := by
  unfold Obligations.PortStatusWordBits
  intro s p
  refine ⟨fun hopen hn hr hc => ?fields, intq_of_not_held, fun hh => ⟨busWord_of_held hh _, intq_of_held hh⟩,
    fun hopen hc hr hn ho hp hoff => ?resetValues⟩
  case fields =>
    obtain ⟨h1, h2, h3, h4, h5, hstate, h7, hintq, h9, h10, h11, h12⟩ := portStatusWord_bits s p hn hr hc
    exact ⟨_, busWord_of_open hopen _, h1, h2, h3, h4, h5, hstate.trans (by cases (s.ctx p).portState <;> rfl), h7,
      hintq.trans (intq_of_not_held hopen.1), hintq.symm, h9, h10, h11, h12⟩
  case resetValues =>
    rw [pstatRead, busWord_of_open hopen]
    simp only [portStatusWord, hc, hr, hn, ho, hp, intq_of_not_held hopen.1, hoff]
    decide

/-! The command word and its operand ranges (R165, R166) -/

theorem commandWord_toNat (code a : BitVec 8) (b : BitVec 16) :
    (commandWord code a b).toNat = 16777216 * code.toNat + 65536 * a.toNat + b.toNat := by
  unfold commandWord
  rw [BitVec.toNat_append, BitVec.toNat_append, ← Nat.shiftLeft_add_eq_or_of_lt a.isLt,
    ← Nat.shiftLeft_add_eq_or_of_lt b.isLt, Nat.shiftLeft_eq, Nat.shiftLeft_eq]
  omega

/-- The operand of ROUTE is in range exactly when its reserved bits are zero and its policy is one of three. -/
theorem routeOperand_range (b : BitVec 16) :
    b < 0x30 ↔ b.extractLsb' 6 10 = 0 ∧ (b.extractLsb' 4 2).toNat ≤ 2 := by
  rw [BitVec.lt_def, ← BitVec.toNat_inj]
  simp only [BitVec.extractLsb'_toNat, Nat.shiftRight_eq_div_pow]
  have := b.isLt
  simp
  omega

/-- Settles O47: the fields of the word, and the ranges command by command. -/
theorem operandRangesOfTheCodeTable : Obligations.OperandRangesOfTheCodeTable := by
  unfold Obligations.OperandRangesOfTheCodeTable
  refine ⟨fun code a b => ⟨commandWord_toNat code a b, by simp⟩, fun c a b => ?_⟩
  cases c
  case route =>
    have hr := routeOperand_range b
    simp only [operandsOk, Bool.and_eq_true, decide_eq_true_eq, hr, BitVec.lt_def]
    exact and_congr_left' Nat.lt_succ_iff
  all_goals
    simp only [operandsOk, Bool.and_eq_true, decide_eq_true_eq, beq_iff_eq, bne_iff_ne, ne_eq, BitVec.lt_def,
      BitVec.le_def, ← BitVec.toNat_inj, BitVec.ofNat_eq_ofNat, BitVec.toNat_ofNat, Nat.reducePow, Nat.reduceMod] <;>
    omega

end Sys2Proof.Machine

/-! PROOFS. The lines and the timebase (R2, R11, R109, R111): the fall of a LEVEL source, one sample of an input, the
period and the tick. -/

namespace Sys2Proof.Machine

open Sys2Proof.Safety

/-! The deassert event (R11) -/

section
variable {src : Source} {s : State}

theorem fallEvent_level_of_unaffected (he : (s.route src).trigger = .level)
    (h : (s.tracker src).state = .idle ∨ (s.tracker src).state = .inService) :
    fallEvent src s = s.setTracker src { s.tracker src with line := false } := by
  rcases h with h | h <;> simp [fallEvent, he, h, Tracker.deassertEvent, Tracker.setLine]

theorem fallEvent_level_of_pending (he : (s.route src).trigger = .level) (h : (s.tracker src).state = .pending) :
    fallEvent src s = s.setTracker src { idled (s.tracker src) with line := false } := by
  simp [fallEvent, he, h, Tracker.deassertEvent, Tracker.setLine, Tracker.toIdle, idled]

theorem fallEvent_level_of_offered {m : Master} (he : (s.route src).trigger = .level)
    (h : (s.tracker src).state = .offered) (hm : (s.tracker src).holder = some m) :
    fallEvent src s =
      dispatchPass ((s.setTracker src { idled (s.tracker src) with line := false }).setOffer m none) := by
  have hs : (withdrawSource src s).updTracker src (fun t => (t.setLine false).toIdle) =
      (s.setTracker src { idled (s.tracker src) with line := false }).setOffer m none := by
    rw [withdrawSource_of_offered h hm, updTracker_eq, setOffer_tracker, setTracker_tracker_self]
    exact congrArg (State.setOffer · m none) (setTracker_setTracker ..)
  simp only [fallEvent, he, h, if_true, hs]

end

/-- Settles O11, by the state the deassert event finds. -/
theorem deassertEventActsByState : Obligations.DeassertEventActsByState := by
  unfold Obligations.DeassertEventActsByState
  intro n s hn hl hc he src t taken
  rw [exec_fall_of_waits hn hl hc]
  refine ⟨fun h => congrArg _ ?unaffected, fun h => congrArg _ ?pending, fun m h hm => congrArg _ ?offered⟩
  case unaffected => exact fallEvent_level_of_unaffected (s := takeLineChange n s) he h
  case pending => exact fallEvent_level_of_pending (s := takeLineChange n s) he h
  case offered => exact fallEvent_level_of_offered (s := takeLineChange n s) he h hm

/-! One sample of every input (R2, R49, R86, R159) -/

/-- One sample of an input, as the rules recognise its change. -/
theorem sampled_sample (n : Nat) (x : Bool) (i : Sampler) : Sampled n x i (i.sample n x) := by
  refine ⟨fun h => by simp [Sampler.sample, h], fun h hn => ?_, fun h hn => ?_⟩
  · simp [Sampler.sample, h, show ¬ n ≤ i.streak + 1 by omega]
  · simp [Sampler.sample, h, hn]

section
variable (sm : Samples) (s : State)

theorem samplePeriod_reqLine (n : Line) :
    (samplePeriod sm s).reqLine n =
      if s.hubHeld then s.reqLine n else (s.reqLine n).sample 2 (sm.req.getLsbD n.val) := by
  unfold samplePeriod
  split <;> simp [samplePins, sampleLines, State.reqLine, Config.samplesToRecognise, setHas]

theorem samplePeriod_prstInput (p : Master) :
    (samplePeriod sm s).prstInput p = (s.prstInput p).sample 2 (sm.prst.getLsbD p.val) := by
  unfold samplePeriod
  split <;> simp [samplePins, sampleLines, State.prstInput, Config.samplesToRecognise, setHas]

theorem samplePeriod_iackInput (p : Master) :
    (samplePeriod sm s).iackInput p = (s.iackInput p).sample 2 (sm.iack.getLsbD p.val) := by
  unfold samplePeriod
  split <;> simp [samplePins, sampleLines, State.iackInput, Config.samplesToRecognise, setHas]

theorem samplePeriod_hrst : (samplePeriod sm s).inputs.hrst = s.inputs.hrst.sample 4 sm.hrst := by
  unfold samplePeriod
  split <;> simp [samplePins, sampleLines, Config.samplesToRecogniseHrst]

theorem samplePeriod_pinsSampled : PinsSampled sm s (samplePeriod sm s) := by
  refine ⟨fun p => ?_, fun p => ?_, ?_⟩
  · rw [samplePeriod_prstInput]; exact sampled_sample ..
  · rw [samplePeriod_iackInput]; exact sampled_sample ..
  · rw [samplePeriod_hrst]; exact sampled_sample ..

end

/-! The rows TREF_PERIOD and TICK (R109) -/

section
variable {sm : Samples} {s : State}

theorem exec_trefPeriod_running (hn : NoChangeWaits s) (hh : s.hubHeld = false) (hp : s.period ≠ 63) :
    exec (.trefPeriod sm) s = .next (samplePeriod sm { s with period := s.period + 1 }) := by
  simp [exec, execTrefPeriod, (changeWaits_eq_false s).2 hn, hh, hp]

theorem exec_trefPeriod_held (hn : NoChangeWaits s) (hh : s.hubHeld = true) :
    exec (.trefPeriod sm) s = .next (samplePeriod sm s) := by
  simp [exec, execTrefPeriod, (changeWaits_eq_false s).2 hn, hh]

/-- No period comes while a recognised change waits (R3). -/
theorem changeWaits_of_not (h : ¬ NoChangeWaits s) : s.inputs.changeWaits = true :=
  Bool.not_eq_false _ ▸ mt (changeWaits_eq_false s).1 h

theorem exec_tick_due (hn : NoChangeWaits s) (hh : s.hubHeld = false) (hp : s.period = 63) :
    exec (.tick sm) s =
      .next (raiseExpiries (s.tick + 1) (samplePeriod sm { s with period := 0, tick := s.tick + 1 })) := by
  simp [exec, execTick, (changeWaits_eq_false s).2 hn, hh, hp]

/-- A line takes its sample in a period outside reset. -/
theorem samplePeriod_line_sampled (hh : s.hubHeld = false) (n : Line) :
    Sampled 2 (sm.req.getLsbD n.val) (s.reqLine n) ((samplePeriod sm s).reqLine n) := by
  rw [samplePeriod_reqLine, hh]
  exact sampled_sample ..

end

/-! The expiries a tick raises (R111) -/

theorem raiseOffer_eq (t : Tick) :
    raiseOffer t = fun o => { o with raised := o.raised || decide (o.expires = some t) } :=
  funext fun o => by rw [raiseOffer, beq_eq_decide]

theorem raiseEntry_eq (t : Tick) :
    raiseEntry t = fun e => { e with raised := e.raised || decide (e.due = some t) } :=
  funext fun e => by rw [raiseEntry, beq_eq_decide]

theorem raiseExpiries_offer (t : Tick) (s : State) (m : Master) :
    (raiseExpiries t s).offer m = (s.offer m).map (raiseOffer t) := by simp [raiseExpiries, State.offer]

theorem raiseExpiries_ctx (t : Tick) (s : State) (m : Master) :
    (raiseExpiries t s).ctx m = { s.ctx m with stack := (s.ctx m).stack.map (raiseEntry t) } := by
  simp [raiseExpiries, State.ctx]

/-- Settles O12: the samples of a period, by whether HRST is held and whether a change waits. -/
theorem periodSamplesEveryInput : Obligations.PeriodSamplesEveryInput := by
  unfold Obligations.PeriodSamplesEveryInput
  intro sm s
  refine ⟨fun hn hh hp => ?running, fun hn hh => ?held, fun hn => ⟨?waits, ?tickWaits⟩⟩
  case running =>
    refine ⟨_, exec_trefPeriod_running hn hh hp, ?_,
      samplePeriod_line_sampled (s := { s with period := s.period + 1 }) hh,
      samplePeriod_pinsSampled sm { s with period := s.period + 1 }, rfl⟩
    have hlt : s.period.val + 1 < 64 := by omega
    exact Fin.val_add_one_of_lt' hlt
  case held =>
    refine ⟨_, exec_trefPeriod_held hn hh, fun n => ?_, samplePeriod_pinsSampled sm s, rfl⟩
    rw [samplePeriod_reqLine, hh, if_pos rfl]
  case waits => simp [exec, execTrefPeriod, changeWaits_of_not hn]
  case tickWaits => simp [exec, execTick, changeWaits_of_not hn]

/-- Settles O13: the second of two opposite samples is recognised, and a sample at the held level clears the first. -/
theorem twoSamplesRecogniseAChange : Obligations.TwoSamplesRecogniseAChange := by
  unfold Obligations.TwoSamplesRecogniseAChange
  intro n a s hn hh hp hstreak ha
  have hne : a.req.getLsbD n.val ≠ (s.reqLine n).level := by rw [ha]; exact Bool.not_ne_self _
  obtain ⟨-, hfirst, hsecond⟩ := samplePeriod_line_sampled (sm := a) (s := { s with period := s.period + 1 }) hh n
  refine ⟨_, exec_trefPeriod_running hn hh hp, fun h1 => ?second, fun h0 b t' ht hn' hh' hp' => ?first⟩
  case second =>
    rw [hsecond hne (by show 2 ≤ (s.reqLine n).streak + 1; omega)]
    exact ⟨ha, rfl⟩
  case first =>
    have hline : t'.reqLine n = { s.reqLine n with streak := 1 } := by
      rw [ht, hfirst hne (by show (s.reqLine n).streak + 1 < 2; omega)]
      show ({ s.reqLine n with streak := (s.reqLine n).streak + 1 } : Sampler) = _
      rw [h0]
    obtain ⟨hback, -, hrec⟩ := samplePeriod_line_sampled (sm := b) (s := { t' with period := t'.period + 1 }) hh' n
    have hline' : State.reqLine { t' with period := t'.period + 1 } n = { s.reqLine n with streak := 1 } := hline
    rw [hline'] at hback hrec
    refine ⟨_, exec_trefPeriod_running hn' hh' hp', fun hb => ?opposite, fun hb => ?back⟩
    case opposite =>
      rw [hrec (by rw [hb]; exact Bool.not_ne_self _) le_rfl]
      exact ⟨hb, rfl⟩
    case back =>
      rw [hback hb, ← h0]

/-- Settles O14: the tick's samples, and the expiries that equal the new count. -/
theorem tickAdvancesAndRaisesExpiries : Obligations.TickAdvancesAndRaisesExpiries := by
  unfold Obligations.TickAdvancesAndRaisesExpiries
  intro sm s hn hh hp
  refine ⟨_, exec_tick_due hn hh hp, rfl, rfl, fun m => ?offer, fun m => ?ctx,
    samplePeriod_line_sampled (s := { s with period := 0, tick := s.tick + 1 }) hh,
    samplePeriod_pinsSampled sm { s with period := 0, tick := s.tick + 1 }, rfl⟩
  case offer =>
    rw [raiseExpiries_offer, raiseOffer_eq]
    rfl
  case ctx =>
    rw [raiseExpiries_ctx, raiseEntry_eq]
    rfl

end Sys2Proof.Machine

/-! PROOFS. The resets (R4, R49, R50, R158, R159), the window (R146, R147, R152, R153) and the rows that wait behind a
reset (log 22); the step itself. -/

namespace Sys2Proof.Machine

open Sys2Proof.Safety

/-- Settles O1. -/
theorem stepRunsFrontCommand : Obligations.StepRunsFrontCommand := fun _ _ _ => rfl

/-! The reset state and hub reset, record by record -/

section
variable (s : State)

@[simp] theorem reset_tracker (i : Source) : State.reset.tracker i = Tracker.reset false := by
  simp [State.tracker, State.reset]
@[simp] theorem reset_route (i : Source) : State.reset.route i = Route.reset := by simp [State.route, State.reset]
@[simp] theorem reset_ctx (m : Master) : State.reset.ctx m = Context.reset := by simp [State.ctx, State.reset]
@[simp] theorem reset_offer (m : Master) : State.reset.offer m = none := by simp [State.offer, State.reset]
@[simp] theorem reset_queue (g : SignalIndex) : State.reset.queue g = [] := by simp [State.queue, State.reset]
@[simp] theorem reset_port (p : Master) : State.reset.port p = Port.reset := by simp [State.port, State.reset]
@[simp] theorem reset_reqLine (n : Line) : State.reset.reqLine n = Sampler.settled false := by
  simp [State.reqLine, State.reset]
@[simp] theorem reset_prstInput (p : Master) : State.reset.prstInput p = Sampler.settled false := by
  simp [State.prstInput, State.reset]
@[simp] theorem reset_iackInput (p : Master) : State.reset.iackInput p = Sampler.settled false := by
  simp [State.iackInput, State.reset]

@[simp] theorem hubResetState_tracker (i : Source) : (hubResetState s).tracker i = Tracker.reset false := by
  simp [State.tracker, hubResetState]
@[simp] theorem hubResetState_route (i : Source) : (hubResetState s).route i = Route.reset := by
  simp [State.route, hubResetState]
@[simp] theorem hubResetState_ctx (m : Master) : (hubResetState s).ctx m = Context.reset := by
  simp [State.ctx, hubResetState]
@[simp] theorem hubResetState_offer (m : Master) : (hubResetState s).offer m = none := by
  simp [State.offer, hubResetState]
@[simp] theorem hubResetState_queue (g : SignalIndex) : (hubResetState s).queue g = [] := by
  simp [State.queue, hubResetState]
@[simp] theorem hubResetState_port (p : Master) : (hubResetState s).port p = hubResetPort (s.port p) := by
  simp [State.port, hubResetState]
@[simp] theorem hubResetState_reqLine (n : Line) : (hubResetState s).reqLine n = Sampler.settled false := by
  simp [State.reqLine, hubResetState]

end

/-- Settles O3, record by record. -/
theorem resetHoldsTheResetValues : Obligations.ResetHoldsTheResetValues := by
  unfold Obligations.ResetHoldsTheResetValues
  refine ⟨fun i => reset_tracker i, fun i => reset_route i, fun m => reset_ctx m, fun m => reset_offer m,
    fun g => reset_queue g, rfl, rfl, rfl, fun p => ?_, rfl, rfl⟩
  simp [Port.reset]

/-- Settles O5: the records of `hubResetState` one by one. -/
theorem hubResetClearsEverything : Obligations.HubResetClearsEverything := by
  unfold Obligations.HubResetClearsEverything
  intro s hl hc
  have hrow : exec .hubReset s = .next (hubResetState s) := by simp [exec, execHubReset, Sampler.waiting, hl, hc]
  refine ⟨hubResetState s, hrow, rfl, fun src => ?tracker, fun src => ?route, fun m => ?ctx, fun m => ?offer,
    fun g => ?queue, rfl, rfl, rfl, fun p => ?port, fun n => ?line, rfl, rfl, rfl, rfl⟩
  case tracker => simp [Tracker.reset]
  case port => simp [hubResetPort, Port.reset]
  case line => simp [Sampler.settled]
  all_goals simp

/-! The release of HRST (R4, R86, R159) -/

section
variable (req : BitVec 24) (s : State)

theorem hubReleaseState_reqLine (n : Line) :
    (hubReleaseState req s).reqLine n = { level := req.getLsbD n.val, streak := 0, change := false } := by
  simp [State.reqLine, hubReleaseState, Sampler.settled, sampledLine]

theorem hubReleaseState_tracker (i : Source) :
    (hubReleaseState req s).tracker i = { s.tracker i with line := req.getLsbD i.val } := by
  simp [State.tracker, hubReleaseState, Tracker.setLine, sampledLine]

theorem hubReleaseState_inputs :
    (hubReleaseState req s).inputs.prst = s.inputs.prst ∧
    (hubReleaseState req s).inputs.iack = s.inputs.iack ∧
    (hubReleaseState req s).inputs.hrst = s.inputs.hrst.taken := by simp only [hubReleaseState, and_self]

theorem hubReleaseState_iackInput (p : Master) : (hubReleaseState req s).iackInput p = s.iackInput p := by
  simp only [State.iackInput, hubReleaseState_inputs]

theorem hubReleaseState_port (p : Master) : (hubReleaseState req s).port p = s.port p := by
  simp only [State.port, hubReleaseState]

end

/-- Settles O6: the sample loads every line, after each waiting IACK assertion is taken as no access. -/
theorem hubReleaseLoadsTheLines : Obligations.HubReleaseLoadsTheLines := by
  unfold Obligations.HubReleaseLoadsTheLines
  intro req s hh hl hc
  have hrow : exec (.hubResetRelease req) s = .next (hubRelease req s) := by
    simp [exec, execHubResetRelease, Sampler.waiting, hh, hl, hc]
  have hf := ignoreIackAssertions_frame masters s
  have hat := ignoreIackAssertions_at masters s
  rw [hrow, hubRelease]
  generalize masters.foldl ignoreIackAssertion s = v at hf hat ⊢
  have htr (i : Source) : v.tracker i = s.tracker i := by simp only [State.tracker, hf.trackers]
  obtain ⟨hprst, -, hhrst⟩ := hubReleaseState_inputs req v
  refine ⟨hubReleaseState req v, rfl, rfl, fun n => ⟨hubReleaseState_reqLine req v n, ?line⟩, fun g => ?signal,
    hprst.trans hf.prst, hhrst.trans (congrArg Sampler.taken hf.hrst), fun p => ?port, ?frame⟩
  case line => simp only [hubReleaseState_tracker, htr, lineSource]
  case signal =>
    have hlow : req.getLsbD (signalSource g).val = false := BitVec.getLsbD_of_ge _ _ (Nat.le_add_right 24 g.val)
    simp only [hubReleaseState_tracker, htr, hlow]
  case port =>
    rw [hubReleaseState_iackInput, hubReleaseState_port]
    exact ⟨fun hw => (hat p).1 ⟨mem_masters p, hw⟩, fun hw => (hat p).2 fun h => hw h.2⟩
  case frame =>
    simp only [hubReleaseState, hf.routes, hf.contexts, hf.offers, hf.period, hf.tick, hf.settings, hf.queues,
      hf.pending]

/-! PORT_RESET and its release (R49, R50) -/

section
variable {p : Master} {s : State}

theorem exec_portReset_of_waits (hl : (s.prstInput p).level = true) (hc : (s.prstInput p).change = true)
    (hn : ¬ HrstWaits s) : exec (.portReset p) s = .next (portResetEvent p (takePrstChange p true s)) := by
  have hn' : s.hrstWaits = false := Bool.eq_false_iff.2 fun h => hn ((hrstWaits_iff s).1 h)
  simp [exec, execPortReset, Sampler.waiting, hl, hc, hn']

theorem exec_portResetRelease_of_waits (hl : (s.prstInput p).level = false) (hc : (s.prstInput p).change = true) :
    exec (.portResetRelease p) s = .next (ignoreIackAssertion (takePrstChange p false s) p) := by
  simp [exec, execPortResetRelease, Sampler.waiting, hl, hc]

theorem takePrstChange_eq (held : Bool) :
    takePrstChange p held s =
      (s.setInputs { s.inputs with
        prst := s.inputs.prst.set p.val { s.prstInput p with change := false } p.isLt }).setPort p
        { s.port p with resetHeld := held } := rfl

end

theorem setPort_setCtx_setPort (s : State) (p : Master) (a b : Port) (c : Context) :
    ((s.setPort p a).setCtx p c).setPort p b = (s.setCtx p c).setPort p b := by
  simp [State.setPort, State.setCtx]

theorem setPort_setInputs_setPort (s : State) (p : Master) (a b : Port) (i : Inputs) :
    ((s.setPort p a).setInputs i).setPort p b = (s.setInputs i).setPort p b := by
  simp [State.setPort, State.setInputs]

/-- Settles O8, by what is held and what waits. -/
theorem portResetOfOfflineMasterAndRelease : Obligations.PortResetOfOfflineMasterAndRelease := by
  unfold Obligations.PortResetOfOfflineMasterAndRelease
  intro p s hc taken
  refine ⟨fun hw => ?hrstWaits, fun hl hh hn hp => ?offline, fun hl hh hn => ?held, fun hl hi => ?release,
    fun hl hi => ?releaseIack⟩
  case hrstWaits =>
    have : s.hrstWaits = true := hw
    simp [exec, execPortReset, this]
  case offline =>
    rw [exec_portReset_of_waits hl hc hn]
    have hp' : (takePrstChange p true s).present p = false := by
      simp [State.present, takePrstChange_eq, hp]
    have hh' : (takePrstChange p true s).hubHeld = false := hh
    simp only [portResetEvent, hh', hp', Bool.false_eq_true, if_false]
    simp [resetPortRecords, takePrstChange_eq, taken, setPort_setCtx_setPort]
  case held =>
    rw [exec_portReset_of_waits hl hc hn]
    have hh' : (takePrstChange p true s).hubHeld = true := hh
    rw [portResetEvent, if_pos hh', takePrstChange_eq]
  case release =>
    rw [exec_portResetRelease_of_waits hl hc, ignoreIackAssertion_eq]
    exact congrArg _ (if_neg hi)
  case releaseIack =>
    rw [exec_portResetRelease_of_waits hl hc, ignoreIackAssertion_eq]
    refine congrArg _ ((if_pos hi).trans ?_)
    simp [takePrstChange_eq, taken, State.iackInput, setPort_setInputs_setPort]

/-! The window (R146, R147, R152, R153) -/

theorem windowHeld_of_not {s : State} {p : Master} (h : ¬ ResetHeld s p) : windowHeld s p = false :=
  Bool.eq_false_iff.2 fun hw => h ((windowHeld_iff s p).1 hw)

/-- Settles O15. -/
theorem windowWritesQueueOrAreIgnored : Obligations.WindowWritesQueueOrAreIgnored := by
  unfold Obligations.WindowWritesQueueOrAreIgnored
  intro p w s
  refine ⟨fun hh hq => ?append, fun hh hq => ?overrun, fun _ => rfl⟩
  case append => simp [exec, execCmdWrite, windowHeld_of_not hh, Config.commandDepth, hq]
  case overrun => simp [exec, execCmdWrite, windowHeld_of_not hh, Config.commandDepth, Nat.not_lt.2 hq]

/-- Settles O16. -/
theorem replyReadPopsOldestWord : Obligations.ReplyReadPopsOldestWord := by
  unfold Obligations.ReplyReadPopsOldestWord
  intro p s hopen
  refine ⟨fun w rest hr => ?word, fun hr => ?empty⟩
  case word => simp [exec, execRplRead, hr, busRead_of_open hopen, returnRead]
  case empty =>
    have he : emptyHeader = 0 := by decide
    simp [exec, execRplRead, hr, busRead_of_open hopen, returnRead, he]

/-! The rows that wait behind a recognised reset, and a held window (R49, R50, R159, log 22) -/

theorem resetWaits_of_not {s : State} (h : ¬ NoResetWaits s) : s.resetWaits = true :=
  Bool.not_eq_false _ ▸ mt (resetWaits_eq_false s).1 h

section
variable {s : State}

theorem exec_execution_of_resetWaits (hn : s.resetWaits = true) (p : Master) (c : Code) :
    exec (Instr.execution p c) s = .next s := by
  rw [exec_execution, executeCommand_of_resetWaits hn]

theorem exec_undefinedCode_of_resetWaits (hn : s.resetWaits = true) (p : Master) :
    exec (.undefinedCode p) s = .next s := by
  simp only [exec, execUndefinedCode, executeUndefined]
  split <;> simp [hn]

theorem exec_offerExpiry_of_resetWaits (hn : s.resetWaits = true) (m : Master) : exec (.offerExpiry m) s = .next s := by
  simp only [exec, execOfferExpiry]
  split <;> simp [hn]

end

/-- Settles O17: the rows behind a waiting reset, the ignored pulse, and the held window. -/
theorem heldWindowIsInoperative : Obligations.HeldWindowIsInoperative := by
  unfold Obligations.HeldWindowIsInoperative
  refine ⟨fun s hn => ?waits, fun p s hh hi => ?ignored, fun p s hh => ?held⟩
  case waits =>
    have hw := resetWaits_of_not hn
    refine ⟨fun p c => ⟨exec_execution_of_resetWaits hw p c, exec_undefinedCode_of_resetWaits hw p⟩,
      fun n => ⟨?rise, ?fall⟩, fun m => ⟨exec_offerExpiry_of_resetWaits hw m, fun src => ?deadline⟩,
      fun p hopen ho => ?ackRead, fun p hh hr => ?iackPulse⟩
    case rise => simp [exec, execRise, hw]
    case fall => simp [exec, execFall, hw]
    case deadline => simp [exec, execDeadlineExpiry, hw]
    case ackRead =>
      simp [exec, execAckRead, hw, (readsOpen_iff s p).2 hopen, Option.isSome_iff_ne_none.2 ho]
    case iackPulse =>
      have hi : iackIgnored s p = false :=
        Bool.eq_false_iff.2 fun h => ((iackIgnored_iff s p).1 h).elim hh hr
      simp [exec, execIackPulse, hi, hw]
  case ignored =>
    obtain ⟨hl, hc⟩ := hi
    simp [exec, execIackPulse, Sampler.waiting, hl, hc, (iackIgnored_iff s p).2 hh, takeIackChange_eq]
  case held =>
    have hnot : ¬ ReadsOpen s p := fun h => h.1 hh
    obtain ⟨own, t, hrpl⟩ := exec_rplRead_eq p s
    refine ⟨intq_of_held hh, fun w => ?write, ?rplRead, ?ackRead, busWord_of_held hh _, busWord_of_held hh _⟩
    case write => simp [exec, execCmdWrite, (windowHeld_iff s p).2 hh]
    case rplRead => rw [hrpl, busRead_of_held hh]; rfl
    case ackRead => rw [exec_ackRead_of_not_open hnot, busRead_of_held hh]; rfl

/-! The checks before a command's own (R151, R166) -/

theorem codeByte_range (c : Code) : codeByte c ≠ 0 ∧ ¬ 0x26 < codeByte c := by cases c <;> decide

/-- A code field of 0 or beyond the table selects no command (R166). -/
theorem codeOf_of_undefined {x : BitVec 8} (h : x = 0 ∨ 0x26 < x) : codeOf x = none := by
  refine List.find?_eq_none.2 fun c _ hc => ?_
  obtain rfl : codeByte c = x := by simpa using hc
  exact h.elim (codeByte_range c).1 (codeByte_range c).2

theorem isQuery_eq (c : Code) : isQuery c = decide (c ∈ queryCodes) := by cases c <;> rfl

theorem isQuery_of_not_mem {c : Code} (h : c ∉ queryCodes) : isQuery c = false := by simp [isQuery_eq, h]

/-- Settles O46: the checks in their order. -/
theorem refusalsChangeOnlyTheReply : Obligations.RefusalsChangeOnlyTheReply := by
  unfold Obligations.RefusalsChangeOnlyTheReply
  intro p w s hw hn
  obtain ⟨rest, hq⟩ := List.head?_eq_some_iff.1 hw
  have hn' := (resetWaits_eq_false s).2 hn
  refine ⟨fun hcode hroom => ?undefined, fun c hcode hroom => ?defined⟩
  case undefined =>
    have hroom' : hasRoom s p reservedUndefined = true := decide_eq_true hroom
    simp only [exec, execUndefinedCode, executeUndefined, hq, hn', codeOf_of_undefined hcode, hroom']
    exact congrArg _ (produceReply_popped p (codeField w) (answer .badCmd s))
  case defined =>
    have row {st : Status} (he : answerCommand c (effectOf c) p w s = answer st s) :
        exec (Instr.execution p c) s = .next (replied s p (codeField w).toNat st []) := by
      rw [exec_execution, executeCommand_eq_reply hn' hq hcode hroom, he, hcode]
      rfl
    refine ⟨fun ho => row ?badArg,
      fun ho => ⟨fun hp hj hqc => row ?notJoined, fun hp hd hds hqc => row ?state, fun hp hqc => row ?fenced⟩⟩
    case badArg => simp [answerCommand, ho]
    case notJoined => simp [answerCommand, ho, portStateRefusal, hp, hj, isQuery_of_not_mem hqc]
    case state => simp [answerCommand, ho, portStateRefusal, hp, hd, hds, isQuery_of_not_mem hqc]
    case fenced => simp [answerCommand, ho, portStateRefusal, hp, isQuery_of_not_mem hqc]

end Sys2Proof.Machine

/-! PROOFS. The dispatch pass (R64 to R77): what one consideration does, what a walk keeps, and what holds after it. -/

namespace Sys2Proof.Machine

open Sys2Proof.Safety

/-! Eligibility reads the route, the context and the pass set alone (R64) -/

section
variable {s t : State} {src : Source} {m : Master}

theorem eligible_of_reads (hr : t.route src = s.route src) (hc : t.ctx m = s.ctx m)
    (hp : (t.tracker src).passSet = (s.tracker src).passSet ∨ (t.tracker src).passSet = 0)
    (h : eligible s src m = true) : eligible t src m = true := by
  rw [eligible_iff, eligibleToPoll_iff] at h ⊢
  obtain ⟨hl, ht, ho, hpass, rest⟩ := h
  rw [hr, hc]
  refine ⟨hl, ht, ho, ?_, rest⟩
  rcases hp with hp | hp <;> rw [hp]
  · exact hpass
  · exact setHas_zero m

theorem eligible_congr (hr : t.route src = s.route src) (hc : t.ctx m = s.ctx m)
    (hp : (t.tracker src).passSet = (s.tracker src).passSet) : eligible t src m = eligible s src m :=
  Bool.eq_iff_iff.2 ⟨eligible_of_reads hr.symm hc.symm (.inl hp.symm), eligible_of_reads hr hc (.inl hp)⟩

end

theorem withdraw_passSet (m : Master) (s : State) (i : Source) :
    ((withdraw m s).tracker i).passSet = (s.tracker i).passSet := by
  rw [withdraw_tracker]
  split <;> rfl

@[simp] theorem eligible_withdraw (m : Master) (s : State) (i : Source) (k : Master) :
    eligible (withdraw m s) i k = eligible s i k :=
  eligible_congr (withdraw_route m s i) (withdraw_ctx m k s) (withdraw_passSet m s i)

/-! The first step of a pass (R70) -/

theorem offerFails_iff {s : State} {m : Master} :
    offerFails s m = true ↔
      ∃ o, s.offer m = some o ∧ ¬ ((s.route o.source).enabled = true ∧ eligible s o.source m = true) := by
  unfold offerFails
  cases s.offer m <;> simp [-not_and, not_and_or]

theorem offerFails_withdraw (m k : Master) (s : State) :
    offerFails (withdraw m s) k = (offerFails s k && (m != k)) := by
  unfold offerFails
  rw [withdraw_offer]
  by_cases h : m = k
  · simp [h]
  · simp [h]

/-- One master's turn in the first step of a pass. -/
def withdrawFailing (s : State) (m : Master) : State := if offerFails s m then withdraw m s else s

theorem withdrawFailing_offer (m k : Master) (s : State) :
    (withdrawFailing s m).offer k = if m = k ∧ offerFails s k = true then none else s.offer k := by
  unfold withdrawFailing
  by_cases hf : offerFails s m = true <;> by_cases h : m = k <;> simp_all [withdraw_offer]

theorem offerFails_withdrawFailing (m k : Master) (s : State) :
    offerFails (withdrawFailing s m) k = (offerFails s k && (m != k)) := by
  unfold withdrawFailing
  split
  · exact offerFails_withdraw m k s
  · next hf =>
    by_cases h : m = k
    · subst h; simpa using hf
    · simp [h]

theorem eligible_withdrawFailing (m : Master) (s : State) (i : Source) (k : Master) :
    eligible (withdrawFailing s m) i k = eligible s i k := by
  unfold withdrawFailing
  split
  · exact eligible_withdraw m s i k
  · rfl

theorem withdrawIneligible_eq (s : State) : withdrawIneligible s = masters.foldl withdrawFailing s := rfl

theorem foldl_withdrawFailing_offer (l : List Master) (s : State) (k : Master) :
    (l.foldl withdrawFailing s).offer k = if k ∈ l ∧ offerFails s k = true then none else s.offer k := by
  induction l generalizing s with
  | nil => simp
  | cons m l ih =>
    rw [List.foldl_cons, ih, withdrawFailing_offer, offerFails_withdrawFailing]
    by_cases h : m = k
    · subst h; simp
    · simp [h, Ne.symm h]

theorem foldl_withdrawFailing_eligible (l : List Master) (s : State) (i : Source) (k : Master) :
    eligible (l.foldl withdrawFailing s) i k = eligible s i k := by
  induction l generalizing s with
  | nil => rfl
  | cons m l ih => rw [List.foldl_cons, ih, eligible_withdrawFailing]

/-- The offer records after the first step: those that fail are empty. -/
theorem withdrawIneligible_offer (s : State) (k : Master) :
    (withdrawIneligible s).offer k = if offerFails s k = true then none else s.offer k := by
  rw [withdrawIneligible_eq, foldl_withdrawFailing_offer]
  simp [mem_masters]

/-- The first step leaves qualifying offers alone (R70). -/
theorem withdrawIneligible_qualify (s : State) : OffersQualify (withdrawIneligible s) := by
  intro m o ho
  rw [withdrawIneligible_offer] at ho
  split at ho
  · cases ho
  · next hf =>
    rw [(withdrawIneligible_frame s).route_eq, withdrawIneligible_eq, foldl_withdrawFailing_eligible]
    by_contra hn
    exact hf (offerFails_iff.2 ⟨o, ho, hn⟩)

/-! One consideration (R71 to R75) -/

/-- The offer record of `m` holds a source of urgency `u` or above, so `m` does not receive one of urgency `u` (R73). -/
def SlotHolds (s : State) (m : Master) (u : Urgency) : Prop :=
  ∃ o, s.offer m = some o ∧ u ≤ (s.route o.source).urgency

/-- `src` placed at `m`: offered in an empty record, or by replacement (R74, R75). -/
def placedAt (src : Source) (m : Master) (s : State) : State := makeOffer src m (withdraw m s)

section
variable {s : State} {src : Source}

theorem slotHolds_of_none {m : Master} {u : Urgency} (h : s.offer m = none) : ¬ SlotHolds s m u := by
  rintro ⟨o, ho, -⟩
  simp [h] at ho

theorem slotHolds_of_some {m : Master} {u : Urgency} {o : Offer} (h : s.offer m = some o) :
    SlotHolds s m u ↔ ¬ (s.route o.source).urgency < u := by simp [SlotHolds, h]

/-- Trying a list of masters: all hold, or the first that does not receives the source (R73). -/
theorem placeOffer_cases (src : Source) (l : List Master) (s : State) :
    ((∀ k ∈ l, SlotHolds s k (s.route src).urgency) ∧ placeOffer src l s = s) ∨
      ∃ a m b, l = a ++ m :: b ∧ (∀ k ∈ a, SlotHolds s k (s.route src).urgency) ∧
        ¬ SlotHolds s m (s.route src).urgency ∧ placeOffer src l s = placedAt src m s := by
  induction l with
  | nil => exact .inl ⟨by simp, rfl⟩
  | cons m rest ih =>
    have here (hn : ¬ SlotHolds s m (s.route src).urgency) (hp : placeOffer src (m :: rest) s = placedAt src m s) :
        ∃ a k b, m :: rest = a ++ k :: b ∧ (∀ j ∈ a, SlotHolds s j (s.route src).urgency) ∧
          ¬ SlotHolds s k (s.route src).urgency ∧ placeOffer src (m :: rest) s = placedAt src k s :=
      ⟨[], m, rest, rfl, by simp, hn, hp⟩
    cases ho : s.offer m with
    | none => exact .inr (here (slotHolds_of_none ho) (by simp [placeOffer, ho, placedAt, withdraw_of_none]))
    | some o =>
      by_cases hu : (s.route o.source).urgency < (s.route src).urgency
      · exact .inr (here (fun h => (slotHolds_of_some ho).1 h hu) (by simp [placeOffer, ho, hu, placedAt]))
      · have hm : SlotHolds s m (s.route src).urgency := (slotHolds_of_some ho).2 hu
        have hp : placeOffer src (m :: rest) s = placeOffer src rest s := by simp [placeOffer, ho, hu]
        rw [hp]
        rcases ih with ⟨hall, he⟩ | ⟨a, k, b, rfl, ha, hk, he⟩
        · exact .inl ⟨List.forall_mem_cons.2 ⟨hm, hall⟩, he⟩
        · exact .inr ⟨m :: a, k, b, rfl, List.forall_mem_cons.2 ⟨hm, ha⟩, hk, he⟩

/-! The preference list and the walk in order (R66, R67, R71) -/

theorem mem_rotation (last m : Master) : m ∈ [1, 2, 3, 4].map (fun k => last + Fin.ofNat 4 k) := by
  revert last m
  decide

theorem mem_policyOrder {m : Master} (hd : (s.ctx m).stack.length < 8) : m ∈ policyOrder s src := by
  unfold policyOrder
  split
  · exact mem_masters m
  · exact mem_rotation _ m
  · simp only [List.mem_flatMap, List.mem_range, List.mem_filter, beq_iff_eq]
    exact ⟨_, hd, mem_masters m, rfl⟩

theorem mem_preference {m : Master} : m ∈ preference s src ↔ eligible s src m = true := by
  rw [preference, List.mem_filter, and_iff_right_iff_imp]
  intro h
  exact mem_policyOrder (eligibleToPoll_iff.1 (eligible_iff.1 h).2).2.2.2.2.2

/-- The order in which the policy of `src` names two masters (R66, R67). -/
def policyLt (s : State) (src : Source) (a b : Master) : Prop :=
  match (s.route src).policy with
  | .fixed => a < b
  | .rotate => a - (s.route src).last - 1 < b - (s.route src).last - 1
  | .least => (s.ctx a).stack.length < (s.ctx b).stack.length ∨
      ((s.ctx a).stack.length = (s.ctx b).stack.length ∧ a < b)

theorem masters_pairwise : masters.Pairwise (· < ·) := by decide

theorem rotation_pairwise (last : Master) :
    ([1, 2, 3, 4].map (fun k => last + Fin.ofNat 4 k)).Pairwise (fun a b => a - last - 1 < b - last - 1) := by
  revert last
  decide

/-- Masters by stack depth, ascending number at each depth (R67). -/
theorem byDepth_pairwise (s : State) :
    ((List.range Config.stackDepth).flatMap
      (fun d => masters.filter (fun m => (s.ctx m).stack.length == d))).Pairwise
      (fun a b => (s.ctx a).stack.length < (s.ctx b).stack.length ∨
        ((s.ctx a).stack.length = (s.ctx b).stack.length ∧ a < b)) := by
  simp only [List.pairwise_flatMap, List.mem_filter, beq_iff_eq]
  refine ⟨fun d _ => ?_, List.pairwise_lt_range.imp fun hlt a ha b hb => .inl ?_⟩
  · refine (masters_pairwise.filter _).imp_of_mem fun ha hb hlt => .inr ⟨?_, hlt⟩
    simp only [List.mem_filter, beq_iff_eq] at ha hb
    rw [ha.2, hb.2]
  · rw [ha.2, hb.2]
    exact hlt

theorem policyOrder_pairwise (s : State) (src : Source) : (policyOrder s src).Pairwise (policyLt s src) := by
  unfold policyOrder policyLt
  cases (s.route src).policy with
  | fixed => exact masters_pairwise
  | rotate => exact rotation_pairwise _
  | least => exact byDepth_pairwise s

theorem mem_passOrder (s : State) (src : Source) : src ∈ passOrder s := by
  simp [passOrder, mem_urgencies, mem_sources]

theorem passOrder_pairwise (s : State) :
    (passOrder s).Pairwise (fun i j =>
      (s.route j).urgency < (s.route i).urgency ∨ ((s.route j).urgency = (s.route i).urgency ∧ i < j)) := by
  simp only [passOrder, List.pairwise_flatMap, List.mem_filter, beq_iff_eq]
  refine ⟨fun u _ => ?_, urgencies_pairwise.imp fun hgt i hi j hj => .inl ?_⟩
  · refine (sources_pairwise.filter _).imp_of_mem fun hi hj hlt => .inr ⟨?_, hlt⟩
    simp only [List.mem_filter, beq_iff_eq] at hi hj
    rw [hi.2, hj.2]
  · rw [hi.2, hj.2]
    exact hgt

end

/-- Settles O53. -/
theorem preferenceAndWalkOrder : Obligations.PreferenceAndWalkOrder := by
  unfold Obligations.PreferenceAndWalkOrder
  exact fun s => ⟨fun _ _ => mem_preference, fun src => (policyOrder_pairwise s src).filter _, mem_passOrder s,
    passOrder_pairwise s⟩

/-! A consideration, record by record -/

section
variable {s : State} {src : Source} {m : Master}

theorem passSetCovers_iff :
    passSetCovers s src = true ↔
      (∃ m, setHas (s.route src).targets m = true ∧ s.online m = true) ∧
        ∀ m, setHas (s.route src).targets m = true → s.online m = true →
          setHas (s.tracker src).passSet m = true := by
  simp only [passSetCovers, Bool.and_eq_true, List.any_eq_true, List.all_eq_true, Bool.or_eq_true,
    Bool.not_eq_true', Bool.and_eq_false_iff, mem_masters, true_and, forall_const]
  refine and_congr_right fun _ => forall_congr' fun m => ?_
  cases setHas (s.route src).targets m <;> cases s.online m <;> simp

@[simp] theorem clearPassSet_offer : (clearPassSet src s).offer m = s.offer m := by
  unfold clearPassSet
  split <;> rfl

/-- The trackers after the clearing step: only the pass set of `src` can differ, and is then empty (R72). -/
theorem clearPassSet_tracker (i : Source) :
    (clearPassSet src s).tracker i = s.tracker i ∨
      (i = src ∧ (clearPassSet src s).tracker i = { s.tracker i with passSet := 0 }) := by
  unfold clearPassSet
  split
  · by_cases h : src = i
    · subst h; exact .inr ⟨rfl, by simp⟩
    · exact .inl (by simp [h])
  · exact .inl rfl

@[simp] theorem slotHolds_clearPassSet {u : Urgency} : SlotHolds (clearPassSet src s) m u ↔ SlotHolds s m u := by
  simp only [SlotHolds, clearPassSet_offer, (clearPassSet_frame src s).route_eq]

theorem placedAt_offer (k : Master) :
    (placedAt src m s).offer k =
      if m = k then some { source := src, expires := newExpires s, raised := false } else s.offer k := by
  have hx : newExpires (withdraw m s) = newExpires s := by
    simp only [newExpires, withdraw_settings, (withdraw_frame m s).tick]
  rw [placedAt, makeOffer, setOffer_offer, hx]
  by_cases h : m = k
  · simp [h]
  · simp [h, withdraw_offer]

theorem placedAt_tracker (i : Source) :
    (placedAt src m s).tracker i =
      if src = i then ((withdraw m s).tracker i).toOffered m else (withdraw m s).tracker i := by
  rw [placedAt, makeOffer, setOffer_tracker, updTracker_eq, setTracker_tracker]
  split
  · next h => rw [h]
  · rfl

theorem placedAt_frame : PassFrame s (placedAt src m s) := (withdraw_frame m s).trans (makeOffer_frame src m _)

theorem placedAt_passSet (i : Source) : ((placedAt src m s).tracker i).passSet = (s.tracker i).passSet := by
  rw [placedAt_tracker, ← withdraw_passSet m s i]
  split <;> rfl

@[simp] theorem eligible_placedAt (i : Source) (k : Master) : eligible (placedAt src m s) i k = eligible s i k :=
  eligible_congr (placedAt_frame.route_eq i) (placedAt_frame.ctx_eq k) (placedAt_passSet i)

/-- The clearing step keeps what is eligible so (R72). -/
theorem eligible_clearPassSet {i : Source} {k : Master} (h : eligible s i k = true) :
    eligible (clearPassSet src s) i k = true := by
  have hf := clearPassSet_frame src s
  refine eligible_of_reads (hf.route_eq i) (hf.ctx_eq k) ?_ h
  rcases clearPassSet_tracker (s := s) (src := src) i with h | ⟨-, h⟩ <;> rw [h]
  · exact .inl rfl
  · exact .inr rfl

theorem offerable_clearPassSet (i : Source) : offerable (clearPassSet src s) i = offerable s i := by
  have hf := clearPassSet_frame src s
  simp only [offerable, hf.route_eq]
  rcases clearPassSet_tracker (s := s) (src := src) i with h | ⟨-, h⟩ <;> rw [h]

/-- The consideration of an offerable source, by the masters eligible once its pass set is cleared (R72, R73). -/
theorem consider_cases (h : offerable s src = true) :
    ((∀ m ∈ preference (clearPassSet src s) src, SlotHolds s m (s.route src).urgency) ∧
        consider s src = clearPassSet src s) ∨
      ∃ a m b, preference (clearPassSet src s) src = a ++ m :: b ∧
        (∀ k ∈ a, SlotHolds s k (s.route src).urgency) ∧ ¬ SlotHolds s m (s.route src).urgency ∧
        consider s src = placedAt src m (clearPassSet src s) := by
  have hc : consider s src =
      placeOffer src (preference (clearPassSet src s) src) (clearPassSet src s) := by simp [consider, h]
  have hp := placeOffer_cases src (preference (clearPassSet src s) src) (clearPassSet src s)
  simpa only [hc, (clearPassSet_frame src s).route_eq, slotHolds_clearPassSet] using hp

end

/-- Settles O52. -/
theorem considerationPlacesTheSource : Obligations.ConsiderationPlacesTheSource := by
  unfold Obligations.ConsiderationPlacesTheSource
  intro s src hoff holds covered
  have hcov : passSetCovers s src = true ↔ covered := passSetCovers_iff
  refine ⟨clearPassSet src s, fun h => by simp [clearPassSet, hcov.2 h],
    fun h => by simp [clearPassSet, mt hcov.1 h], ?_⟩
  rcases consider_cases hoff with ⟨hall, hc⟩ | ⟨a, m, b, hl, ha, hm, hc⟩
  · exact .inl ⟨hall, hc⟩
  · refine .inr ⟨a, m, b, hl, ha, hm, hc.trans ?_⟩
    have hf := (clearPassSet_frame src s).trans (withdraw_frame m _)
    have hx : newExpires (withdraw m (clearPassSet src s)) = newExpires s := by
      simp only [newExpires, hf.settings, hf.tick]
    rw [placedAt, makeOffer, hx]
    rfl

/-! What a walk keeps -/

section
variable {P : State → Prop}

/-- What the clearing step and the placing of an eligible source keep, a consideration keeps. -/
theorem consider_keeps (hclear : ∀ s src, P s → P (clearPassSet src s))
    (hplace : ∀ s src m, P s → offerable s src = true → eligible s src m = true →
      ¬ SlotHolds s m (s.route src).urgency → P (placedAt src m s)) {s : State} (h : P s) (src : Source) :
    P (consider s src) := by
  by_cases hoff : offerable s src = true
  · rcases consider_cases hoff with ⟨-, hc⟩ | ⟨a, m, b, hl, -, hm, hc⟩
    · exact hc ▸ hclear s src h
    · rw [hc]
      refine hplace _ src m (hclear s src h) ((offerable_clearPassSet src).trans hoff)
        (mem_preference.1 (hl ▸ by simp)) ?_
      rwa [(clearPassSet_frame src s).route_eq, slotHolds_clearPassSet]
  · simpa [consider, hoff] using h

theorem walk_keeps (hclear : ∀ s src, P s → P (clearPassSet src s))
    (hplace : ∀ s src m, P s → offerable s src = true → eligible s src m = true →
      ¬ SlotHolds s m (s.route src).urgency → P (placedAt src m s)) {s : State} (h : P s) (l : List Source) :
    P (l.foldl consider s) := by
  induction l generalizing s with
  | nil => exact h
  | cons src l ih => exact ih (consider_keeps hclear hplace h src)

/-- What a withdrawal, the emptying of a pass set and the offer of a PENDING source in an empty record keep, a pass
keeps. -/
theorem dispatchPass_keeps (hwithdraw : ∀ s m, P s → P (withdraw m s))
    (hclear : ∀ s src, P s → P (s.setTracker src { s.tracker src with passSet := 0 }))
    (hoffer : ∀ s src m, P s → s.offer m = none → offerable s src = true → eligible s src m = true →
      P (makeOffer src m s)) {s : State} (h : P s) : P (dispatchPass s) := by
  have hfirst (l : List Master) : ∀ s, P s → P (l.foldl withdrawFailing s) := by
    induction l with
    | nil => exact fun _ h => h
    | cons m l ih =>
      intro s h
      refine ih _ ?_
      unfold withdrawFailing
      split
      · exact hwithdraw s m h
      · exact h
  refine walk_keeps (fun s src h => ?clear) (fun s src m h hoff hel hslot => ?place) (hfirst masters s h) _
  case clear =>
    unfold clearPassSet
    split
    · exact hclear s src h
    · exact h
  case place =>
    refine hoffer _ src m (hwithdraw s m h) (by simp [withdraw_offer]) ?_ (by simpa using hel)
    have hne : (s.offer m).map (·.source) ≠ some src := by
      intro hown
      obtain ⟨o, ho, rfl⟩ := Option.map_eq_some_iff.1 hown
      exact hslot ⟨o, ho, le_rfl⟩
    simpa only [offerable, withdraw_tracker, if_neg hne, withdraw_route] using hoff

end

/-! What holds after a pass (R70, R74 to R77) -/

theorem placedAt_qualify {s : State} {src : Source} {m : Master} (h : OffersQualify s)
    (hoff : offerable s src = true) (hel : eligible s src m = true) : OffersQualify (placedAt src m s) := by
  intro k o ho
  rw [placedAt_frame.route_eq, eligible_placedAt]
  rw [placedAt_offer] at ho
  split at ho
  · next hk =>
    subst hk
    cases ho
    exact ⟨(offerable_iff.1 hoff).2.1, hel⟩
  · exact h k o ho

/-- Settles O50: the first step leaves qualifying offers, and the walk makes no other. -/
theorem passLeavesOnlyQualifyingOffers : Obligations.PassLeavesOnlyQualifyingOffers := by
  unfold Obligations.PassLeavesOnlyQualifyingOffers
  refine fun s => walk_keeps (fun s src h => ?clear) (fun s src m h hoff hel _ => placedAt_qualify h hoff hel)
    (withdrawIneligible_qualify s) _
  case clear =>
    intro k o ho
    rw [clearPassSet_offer] at ho
    obtain ⟨hen, hel⟩ := h k o ho
    exact ⟨by rwa [(clearPassSet_frame src s).route_eq], eligible_clearPassSet hel⟩

/-- The offer `o` of `m` stands in `t`, or a more urgent source has replaced it there with a new expires, as ticks
and limits are in `s` (R74 to R76). -/
def KeptOrReplaced (s : State) (m : Master) (o : Offer) (t : State) : Prop :=
  ∃ o', t.offer m = some o' ∧
    (o' = o ∨ ((s.route o.source).urgency < (s.route o'.source).urgency ∧ o'.raised = false ∧
      o'.expires = newExpires s))

theorem placedAt_keptOrReplaced {s t : State} {m k : Master} {o : Offer} {src : Source} (hf : PassFrame s t)
    (h : KeptOrReplaced s m o t) (hslot : ¬ SlotHolds t k (t.route src).urgency) :
    KeptOrReplaced s m o (placedAt src k t) := by
  obtain ⟨o', ho', hcase⟩ := h
  by_cases hk : k = m
  · subst hk
    have hlt : (s.route o'.source).urgency < (s.route src).urgency := by
      simpa [slotHolds_of_some ho', hf.route_eq] using hslot
    have hx : newExpires t = newExpires s := by simp only [newExpires, hf.settings, hf.tick]
    refine ⟨_, by rw [placedAt_offer, if_pos rfl], .inr ⟨?_, rfl, hx⟩⟩
    rcases hcase with rfl | ⟨hle, -⟩
    · exact hlt
    · exact hle.trans hlt
  · exact ⟨o', by rw [placedAt_offer, if_neg hk, ho'], hcase⟩

/-- Settles O51. -/
theorem passKeepsOrReplacesStandingOffers : Obligations.PassKeepsOrReplacesStandingOffers := by
  unfold Obligations.PassKeepsOrReplacesStandingOffers
  intro s m o ho hen hel
  have hfirst : (withdrawIneligible s).offer m = some o := by
    rw [withdrawIneligible_offer, if_neg, ho]
    intro hf
    obtain ⟨o', ho', hn⟩ := offerFails_iff.1 hf
    obtain rfl : o = o' := Option.some.inj (ho.symm.trans ho')
    exact hn ⟨hen, hel⟩
  have hkeeps := walk_keeps (P := fun t => PassFrame s t ∧ KeptOrReplaced s m o t) (fun t src h => ?clear)
    (fun t src k h _ _ hslot => ⟨h.1.trans placedAt_frame, placedAt_keptOrReplaced h.1 h.2 hslot⟩)
    ⟨withdrawIneligible_frame s, o, hfirst, .inl rfl⟩ (passOrder (withdrawIneligible s))
  case clear =>
    obtain ⟨hf, o', ho', hcase⟩ := h
    exact ⟨hf.trans (clearPassSet_frame src t), o', by rwa [clearPassSet_offer], hcase⟩
  exact hkeeps.2

/-- Of the sources in `l`, none that is offerable finds a master eligible for it with a free or less urgent slot. -/
def ServedAll (l : List Source) (s : State) : Prop :=
  ∀ src ∈ l, ∀ m, offerable s src = true → eligible s src m = true → SlotHolds s m (s.route src).urgency

/-- The consideration of `x` serves it, and leaves served what is at least as urgent: the slot it takes was held by a
less urgent source, or by none (R73, R74). -/
theorem servedAll_consider {l : List Source} {s : State} {x : Source} (h : ServedAll l s)
    (hx : ∀ i ∈ l, (s.route x).urgency ≤ (s.route i).urgency) : ServedAll (l ++ [x]) (consider s x) := by
  have hclear : ∀ i ∈ l, i ≠ x → ∀ m, offerable (clearPassSet x s) i = true →
      eligible (clearPassSet x s) i m = true → SlotHolds s m (s.route i).urgency := by
    intro i hi hne m hoff hel
    have ht : (clearPassSet x s).tracker i = s.tracker i :=
      (clearPassSet_tracker i).resolve_right fun h => hne h.1
    have hf := clearPassSet_frame x s
    refine h i hi m ((offerable_clearPassSet i).symm.trans hoff) ?_
    rwa [eligible_congr (hf.route_eq i) (hf.ctx_eq m) (by rw [ht])] at hel
  by_cases hoff : offerable s x = true
  case neg =>
    rw [show consider s x = s by simp [consider, hoff]]
    intro i hi m hi' hel
    rcases List.mem_append.1 hi with hi | hi
    · exact h i hi m hi' hel
    · exact absurd (List.mem_singleton.1 hi ▸ hi') hoff
  case pos =>
    rcases consider_cases hoff with ⟨hall, hc⟩ | ⟨a, k, b, -, -, hk, hc⟩
    · rw [hc]
      intro i hi m hi' hel
      rw [slotHolds_clearPassSet, (clearPassSet_frame x s).route_eq]
      by_cases hix : i = x
      · subst hix
        exact hall m (mem_preference.2 hel)
      · exact hclear i (by simpa [hix] using hi) hix m hi' hel
    · rw [hc]
      intro i hi m hi' hel
      have hf := (clearPassSet_frame x s).trans (placedAt_frame (src := x) (m := k))
      have hix : i ≠ x := by
        rintro rfl
        simp [offerable, placedAt_tracker, Tracker.toOffered] at hi'
      have hil : i ∈ l := by simpa [hix] using hi
      rw [eligible_placedAt] at hel
      have hnot : ((clearPassSet x s).offer k).map (·.source) ≠ some i := by
        intro hown
        obtain ⟨o, ho, rfl⟩ := Option.map_eq_some_iff.1 hown
        exact hk ⟨o, by simpa using ho, hx _ hil⟩
      have hi'' : offerable (clearPassSet x s) i = true := by
        simpa only [offerable, placedAt_tracker, if_neg (Ne.symm hix), withdraw_tracker, if_neg hnot,
          placedAt_frame.route_eq] using hi'
      obtain ⟨o, ho, hu⟩ := hclear i hil hix m hi'' hel
      have hkm : k ≠ m := by
        rintro rfl
        exact hk ⟨o, ho, (hx i hil).trans hu⟩
      refine ⟨o, by rw [placedAt_offer, if_neg hkm, clearPassSet_offer, ho], ?_⟩
      rwa [hf.route_eq, hf.route_eq]

/-- A walk in order of urgency serves every source it visits. -/
theorem servedAll_walk (todo : List Source) {done : List Source} {s : State} (h : ServedAll done s)
    (hp : (done ++ todo).Pairwise (fun i j => (s.route j).urgency ≤ (s.route i).urgency)) :
    ServedAll (done ++ todo) (todo.foldl consider s) := by
  induction todo generalizing done s with
  | nil => simpa using h
  | cons x todo ih =>
    have hx : ∀ i ∈ done, (s.route x).urgency ≤ (s.route i).urgency :=
      fun i hi => (List.pairwise_append.1 hp).2.2 i hi x List.mem_cons_self
    have hs := ih (servedAll_consider h hx)
      (by simpa only [(consider_frame s x).route_eq, List.append_assoc, List.singleton_append] using hp)
    simpa only [List.append_assoc, List.singleton_append, List.foldl_cons] using hs

/-- After a pass no source waits before a free slot, whatever stood before (R77). -/
theorem dispatchPass_noneWaits (s : State) : NoneWaitsBeforeFreeSlot (dispatchPass s) := by
  have hp := (passOrder_pairwise (withdrawIneligible s)).imp
    (S := fun i j => ((withdrawIneligible s).route j).urgency ≤ ((withdrawIneligible s).route i).urgency)
    fun h => h.elim le_of_lt fun h => h.1.le
  have hmem := mem_passOrder (withdrawIneligible s)
  rw [dispatchPass]
  generalize withdrawIneligible s = u at hp hmem
  intro src m hoff hel
  exact servedAll_walk (passOrder u) (done := []) (by simp [ServedAll]) hp src (hmem src) m hoff hel

/-- Settles O49: the walk in order of urgency serves every source. -/
theorem passLeavesNoFreeSlotWaiting : Obligations.PassLeavesNoFreeSlotWaiting :=
  fun s _ => dispatchPass_noneWaits s

end Sys2Proof.Machine

/-! PROOFS. What every execution leaves alone: the inputs, the queue of waiting commands, and of the
ports all but their notices. With it the whole reply within its reservation (R149, R150, R152). -/

namespace Sys2Proof.Machine

open Sys2Proof.Safety

/-- A port without its notices: the fields that only the window, the execution of a word and the resets reach. -/
def Port.bare (q : Port) : Port := { q with notices := [], noticeOverflow := false }

/-- The inputs, HRST as taken, the queue of waiting commands, and the ports but for their notices. -/
def State.wires (s : State) : Bool × Inputs × List Instr × (Master → Port) :=
  (s.hubHeld, s.inputs, s.pending, fun k => (s.port k).bare)

section
variable {s t : State}

theorem wires_eq (hh : t.hubHeld = s.hubHeld) (hi : t.inputs = s.inputs) (hq : t.pending = s.pending)
    (hp : ∀ k, (t.port k).bare = (s.port k).bare) : t.wires = s.wires := by
  simp only [State.wires, hh, hi, hq, hp]

theorem pending_of_wires (h : t.wires = s.wires) : t.pending = s.pending := congrArg (fun w => w.2.2.1) h

theorem bare_of_wires (h : t.wires = s.wires) (k : Master) : (t.port k).bare = (s.port k).bare :=
  congrFun (congrArg (fun w => w.2.2.2) h) k

theorem commands_of_bare {q r : Port} (h : q.bare = r.bare) : q.commands = r.commands :=
  show q.bare.commands = r.bare.commands from congrArg Port.commands h
theorem replies_of_bare {q r : Port} (h : q.bare = r.bare) : q.replies = r.replies :=
  show q.bare.replies = r.bare.replies from congrArg Port.replies h

@[simp] theorem noticedPort_bare (n : Notice) (q : Port) : (noticedPort n q).bare = q.bare := by
  unfold noticedPort
  split <;> rfl

/-! The updates of one record -/

theorem setPort_wires (k : Master) (q : Port) (h : q.bare = (s.port k).bare) : (s.setPort k q).wires = s.wires := by
  refine wires_eq rfl rfl rfl fun j => ?_
  rw [setPort_port]
  split
  · next hj => exact hj ▸ h
  · rfl

@[simp] theorem setTracker_wires (i : Source) (x : Tracker) : (s.setTracker i x).wires = s.wires := rfl
@[simp] theorem setRoute_wires (i : Source) (x : Route) : (s.setRoute i x).wires = s.wires := rfl
@[simp] theorem setCtx_wires (m : Master) (x : Context) : (s.setCtx m x).wires = s.wires := rfl
@[simp] theorem setOffer_wires (m : Master) (x : Option Offer) : (s.setOffer m x).wires = s.wires := rfl
@[simp] theorem setQueue_wires (g : SignalIndex) (x : List Signal) : (s.setQueue g x).wires = s.wires := rfl
@[simp] theorem setSettings_wires (x : Settings) : (s.setSettings x).wires = s.wires := rfl

/-! The shared operations -/

theorem foldl_wires {α : Type} (f : State → α → State) (hf : ∀ s a, (f s a).wires = s.wires) (l : List α) (s : State) :
    (l.foldl f s).wires = s.wires := by
  induction l generalizing s with
  | nil => rfl
  | cons a rest ih => exact (ih _).trans (hf s a)

theorem PassFrame.wires (h : PassFrame s t) : t.wires = s.wires :=
  wires_eq h.hubHeld h.inputs h.pending fun k => by rw [h.port_eq]

variable (s)

@[simp] theorem withdraw_wires (m : Master) : (withdraw m s).wires = s.wires := (withdraw_frame m s).wires
@[simp] theorem withdrawSource_wires (src : Source) : (withdrawSource src s).wires = s.wires :=
  (withdrawSource_frame src s).wires
@[simp] theorem dispatchPass_wires : (dispatchPass s).wires = s.wires := (dispatchPass_frame s).wires

@[simp] theorem queueNotice_wires (m : Master) (n : Notice) : (queueNotice m n s).wires = s.wires := by
  rw [queueNotice_eq]
  split
  · exact setPort_wires m _ (noticedPort_bare n _)
  · rfl

@[simp] theorem notifyOthers_wires (m : Master) (n : Notice) : (notifyOthers m n s).wires = s.wires :=
  foldl_wires _ (fun s k => by split <;> simp) masters s

@[simp] theorem clearNotices_wires (m : Master) : (clearNotices m s).wires = s.wires := setPort_wires m _ rfl

@[simp] theorem popNotice_wires (m : Master) : (popNotice m s).wires = s.wires := setPort_wires m _ rfl

@[simp] theorem passRoute_wires (m : Master) (src : Source) : (passRoute m s src).wires = s.wires := by
  unfold passRoute
  split
  · split
    · split <;> simp
    · rfl
  · rfl

@[simp] theorem bindingPassage_wires (m : Master) : (bindingPassage m s).wires = s.wires :=
  foldl_wires _ (fun s src => passRoute_wires s m src) sources s

@[simp] theorem setPortState_wires (m : Master) (ps : PortState) : (setPortState m ps s).wires = s.wires := rfl

@[simp] theorem endLeaving_wires (m : Master) : (endLeaving m s).wires = s.wires := by simp [endLeaving]

@[simp] theorem restCompleted_wires (src : Source) : (restCompleted src s).wires = s.wires := by
  unfold restCompleted
  cases signalIndex src <;> simp

@[simp] theorem restInterrupted_wires (src : Source) : (restInterrupted src s).wires = s.wires := by
  simp [restInterrupted]

@[simp] theorem fenceMaster_wires (m : Master) : (fenceMaster m s).wires = s.wires := by
  have hr (l : List Entry) (s : State) : (l.foldl (reclaimUncharged m) s).wires = s.wires :=
    foldl_wires _ (fun s e => by simp [reclaimUncharged]) l s
  simp [fenceMaster, hr]

@[simp] theorem noteTake_wires (m : Master) (src : Source) : (noteTake m src s).wires = s.wires := by
  unfold noteTake
  dsimp only
  split
  · split <;> simp
  · simp

@[simp] theorem takeSource_wires (m : Master) (src : Source) (via : Via) :
    (takeSource m src via s).wires = s.wires := by
  unfold takeSource
  split <;> simp

@[simp] theorem completeEntry_wires (m : Master) (src : Source) : (completeEntry m src s).wires = s.wires := by
  unfold completeEntry
  dsimp only
  split <;> simp

@[simp] theorem reclaimCharged_wires (m : Master) (src : Source) : (reclaimCharged m src s).wires = s.wires := by
  unfold reclaimCharged
  dsimp only
  split
  · simp
  · split <;> simp

@[simp] theorem lapseOffer_wires (m : Master) (o : Offer) : (lapseOffer m o s).wires = s.wires := by
  simp [lapseOffer]

@[simp] theorem clearMisses_wires : (clearMisses s).wires = s.wires := foldl_wires _ (fun _ _ => rfl) masters s

@[simp] theorem withdrawWhen_wires (f : Offer → Bool) (m : Master) : (withdrawWhen f m s).wires = s.wires := by
  unfold withdrawWhen
  split
  · split <;> simp
  · rfl

@[simp] theorem withdrawBelow_wires (m : Master) : (withdrawBelow m s).wires = s.wires := by
  unfold withdrawBelow
  split
  · split <;> simp
  · rfl

@[simp] theorem withdrawNonTarget_wires (src : Source) : (withdrawNonTarget src s).wires = s.wires := by
  unfold withdrawNonTarget
  split
  · split <;> simp
  · rfl

@[simp] theorem withdrawUnurgent_wires (src : Source) : (withdrawUnurgent src s).wires = s.wires := by
  unfold withdrawUnurgent
  split
  · split <;> simp
  · rfl

@[simp] theorem flushQueue_wires (g : SignalIndex) : (flushQueue g s).wires = s.wires := by
  unfold flushQueue
  split
  · rfl
  · simp
  · rfl
  · rfl

/-! The effects -/

@[simp] theorem answer_state (st : Status) : (answer st s).state = s := rfl
@[simp] theorem answerData_state (l : List Word) : (answerData l s).state = s := rfl

@[simp] theorem takeAnswer_wires (m : Master) (src : Source) (via : Via) :
    (takeAnswer m src via s).state.wires = s.wires := by simp [takeAnswer]

end

theorem configured_wires {b : Bool} {p : Master} {src : Source} {s : State} {own : Answer}
    (h : own.state.wires = s.wires) : (configured b p src s own).state.wires = s.wires := by
  unfold configured
  split
  · rfl
  · exact h

/-- No effect reaches the inputs, the ports but for their notices, or the line fields. -/
theorem effectOf_wires (c : Code) (p : Master) (a : BitVec 8) (b : BitVec 16) (s : State) :
    (effectOf c p a b s).state.wires = s.wires := by
  cases c
  case join => simp only [effectOf, joinEffect]; split <;> simp
  case leave => simp only [effectOf, leaveEffect]; split <;> simp
  case fence =>
    simp only [effectOf, fenceEffect]
    split
    · rfl
    · cases (s.ctx (masterOf a)).portState <;> simp
  case unfence => simp only [effectOf, unfenceEffect, readmit]; split <;> simp
  case mask | unmask | thresh | quiet | loud =>
    simp [effectOf, maskEffect, unmaskEffect, threshEffect, quietEffect, loudEffect]
  case nest | openMode => simp only [effectOf, nestEffect, openEffect, setNesting]; split <;> rfl
  case setClass | setOffer | setFence =>
    simp only [effectOf, setClassEffect, setOfferEffect, setFenceEffect]; split <;> simp
  case bind =>
    simp only [effectOf, bindEffect]
    split
    · rfl
    · split <;> rfl
  case unbind | limit => exact configured_wires rfl
  case route => exact configured_wires (by simp)
  case urge | enable => exact configured_wires (by simp)
  case flush => exact configured_wires (by simp)
  case heir =>
    refine configured_wires ?_
    split <;> rfl
  case trig =>
    refine configured_wires ?_
    split
    · rfl
    · split
      · rfl
      · dsimp only
        split <;> simp
  case auto =>
    refine configured_wires ?_
    split
    · rfl
    · split <;> rfl
  case disable =>
    refine configured_wires ?_
    rw [answer_state]
    split <;> simp
  case raise =>
    simp only [effectOf, raiseEffect]
    split
    · rw [answer_state]
      split <;> simp
    · rfl
  case pass => simp only [effectOf, passEffect]; cases s.offer p <;> simp
  case take => simp only [effectOf, takeEffect]; cases s.offer p <;> simp
  case poll => simp only [effectOf, pollEffect]; cases pollChoice s p <;> simp
  case done => simp only [effectOf, doneEffect]; cases (s.ctx p).stack.getLast? <;> simp
  case doneSrc =>
    simp only [effectOf, doneSrcEffect]
    split
    · simp
    · split <;> simp
  case status | readStack | readSrc | readRoute | readQ | time => rfl
  case notice => simp only [effectOf, noticeEffect]; cases (s.port p).notices <;> simp

/-- Neither does the answer to a word, whichever check it meets (R151). -/
theorem answerCommand_wires (c : Code) (p : Master) (w : Word) (s : State) :
    (answerCommand c (effectOf c) p w s).state.wires = s.wires := by
  rcases answerCommand_cases c (effectOf c) p w s with ⟨-, h⟩ | ⟨-, st, -, h⟩ | ⟨-, -, h⟩ <;> rw [h]
  · rfl
  · rfl
  · exact effectOf_wires c p _ _ s

/-! The data of a reply within its reservation (R150) -/

@[simp] theorem answer_data (st : Status) (s : State) : (answer st s).data = [] := rfl
@[simp] theorem answerData_data (l : List Word) (s : State) : (answerData l s).data = l := rfl

theorem configured_data {b : Bool} {p : Master} {src : Source} {s : State} {own : Answer} (h : own.data = []) :
    (configured b p src s own).data = [] := by
  unfold configured
  split
  · rfl
  · exact h

@[simp] theorem configured_answer_data (b : Bool) (p : Master) (src : Source) (s t : State) (st : Status) :
    (configured b p src s (answer st t)).data = [] := configured_data rfl

theorem readStack_length (l : List Entry) (b : Nat) :
    (((l.drop b).take Config.readStackEntries).flatMap (fun e => [entryWord e, dueWord e])).length ≤ 8 := by
  have hsum (k : List Entry) : (k.flatMap (fun e => [entryWord e, dueWord e])).length = 2 * k.length := by
    induction k with
    | nil => rfl
    | cons e k ih => simp [ih, Nat.mul_add]
  rw [hsum, List.length_take]
  have : Config.readStackEntries = 4 := rfl
  omega

/-- The data words of an effect fit beside the header in the words its code reserves (R150). -/
theorem effectOf_data_length {s : State} (hq : SignalQueuesBounded s) (c : Code) (p : Master) (a : BitVec 8)
    (b : BitVec 16) : (effectOf c p a b s).data.length + 1 ≤ reservedWords c := by
  cases c
  case join => simp only [effectOf, joinEffect]; split <;> simp [reservedWords]
  case leave | mask | unmask | thresh | quiet | loud =>
    simp [effectOf, leaveEffect, maskEffect, unmaskEffect, threshEffect, quietEffect, loudEffect, reservedWords]
  case fence =>
    simp only [effectOf, fenceEffect]
    split
    · simp [reservedWords]
    · cases (s.ctx (masterOf a)).portState <;> simp [reservedWords]
  case unfence => simp only [effectOf, unfenceEffect]; split <;> simp [reservedWords]
  case nest | openMode =>
    simp only [effectOf, nestEffect, openEffect, setNesting]; split <;> simp [reservedWords]
  case setClass | setOffer | setFence =>
    simp only [effectOf, setClassEffect, setOfferEffect, setFenceEffect]; split <;> simp [reservedWords]
  case bind =>
    simp only [effectOf, bindEffect]
    split
    · simp [reservedWords]
    · split <;> simp [reservedWords]
  case unbind | limit | route | urge | enable | disable | flush =>
    simp [effectOf, unbindEffect, limitEffect, routeEffect, urgeEffect, enableEffect, disableEffect, flushEffect,
      reservedWords]
  case heir =>
    rw [effectOf, heirEffect, configured_data (by split <;> rfl)]
    rfl
  case trig =>
    rw [effectOf, trigEffect, configured_data (by split; rfl; split <;> rfl)]
    rfl
  case auto =>
    rw [effectOf, autoEffect, configured_data (by split; rfl; split <;> rfl)]
    rfl
  case raise => simp only [effectOf, raiseEffect]; split <;> simp [reservedWords]
  case pass => simp only [effectOf, passEffect]; cases s.offer p <;> simp [reservedWords]
  case take => simp only [effectOf, takeEffect]; cases s.offer p <;> simp [takeAnswer, reservedWords]
  case poll => simp only [effectOf, pollEffect]; cases pollChoice s p <;> simp [takeAnswer, reservedWords]
  case done => simp only [effectOf, doneEffect]; cases (s.ctx p).stack.getLast? <;> simp [reservedWords]
  case doneSrc =>
    simp only [effectOf, doneSrcEffect]
    split
    · simp [reservedWords]
    · split <;> simp [reservedWords]
  case readStack =>
    have := readStack_length (s.ctx (masterOf a)).stack b.toNat
    simp only [effectOf, readStackEffect, answerData_data, reservedWords]
    omega
  case readQ =>
    have := hq (signalOf a)
    simp only [effectOf, readQEffect, answerData_data, List.length_cons, List.length_map, reservedWords]
    omega
  case status | readSrc | readRoute | time => simp [effectOf, statusEffect, readSrcEffect, readRouteEffect,
    timeEffect, reservedWords]
  case notice => simp only [effectOf, noticeEffect]; cases (s.port p).notices <;> simp [reservedWords]

theorem reservedWords_pos (c : Code) : 1 ≤ reservedWords c := by cases c <;> decide

theorem answerCommand_data_length {s : State} (hq : SignalQueuesBounded s) (c : Code) (p : Master) (w : Word) :
    (answerCommand c (effectOf c) p w s).data.length + 1 ≤ reservedWords c := by
  rcases answerCommand_cases c (effectOf c) p w s with ⟨-, h⟩ | ⟨-, st, -, h⟩ | ⟨-, -, h⟩ <;> rw [h]
  · exact reservedWords_pos c
  · exact reservedWords_pos c
  · exact effectOf_data_length hq c p _ _

/-! The row of a command, and every other row -/

section
variable {s : State} {p : Master}

/-- The port of an answered word: the word gone and the whole reply appended (R149, R152). -/
theorem reply_port_queues {ans : Answer} (h : ans.state.wires = s.wires) (code : BitVec 8) :
    ((ans.reply p code).port p).commands = (s.port p).commands.tail ∧
      ∃ header, ((ans.reply p code).port p).replies = (s.port p).replies ++ header :: ans.data := by
  have hb := bare_of_wires h p
  simp only [Answer.reply, setPort_port_self, repliedPort, commands_of_bare hb, replies_of_bare hb]
  exact ⟨trivial, _, rfl⟩

theorem exec_undefinedCode_cases (p : Master) (s : State) :
    exec (.undefinedCode p) s = .next s ∨
      ∃ w rest, s.resetWaits = false ∧ (s.port p).commands = w :: rest ∧ codeOf (codeField w) = none ∧
        (s.port p).replies.length + 1 ≤ 16 ∧
        exec (.undefinedCode p) s = .next ((answer .badCmd s).reply p (codeField w)) := by
  have he : exec (.undefinedCode p) s = .next (executeUndefined p s) := rfl
  rw [he]
  unfold executeUndefined
  cases hq : (s.port p).commands with
  | nil => exact .inl rfl
  | cons w rest =>
    dsimp only
    split
    · next h =>
      simp only [Bool.and_eq_true, Bool.not_eq_true', Option.isNone_iff_eq_none, hasRoom, decide_eq_true_eq] at h
      obtain ⟨⟨hn, hc⟩, hr⟩ := h
      exact .inr ⟨w, rest, hn, rfl, hc, hr, congrArg _ (produceReply_popped p _ (answer .badCmd s))⟩
    · exact .inl rfl

end

/-- Settles O48. -/
theorem headExecutesWithinItsReservation : Obligations.HeadExecutesWithinItsReservation := by
  unfold Obligations.HeadExecutesWithinItsReservation
  intro p s hq
  refine ⟨fun c => ?command, fun hfull => ?undefined⟩
  case command =>
    intro need
    have hneed : need = reservedWords c := by cases c <;> rfl
    rw [hneed]
    refine ⟨fun hfull => ?waits, fun w hw hcode hroom hn => ?executes⟩
    case waits => rw [exec_execution, executeCommand_of_full hfull]
    case executes =>
      obtain ⟨rest, hc⟩ := List.head?_eq_some_iff.1 hw
      have hrow := executeCommand_eq_reply ((resetWaits_eq_false s).2 hn) hc hcode hroom
      obtain ⟨hcmd, header, hrep⟩ := reply_port_queues (p := p) (answerCommand_wires c p w s) (codeByte c)
      refine ⟨_, _, by rw [exec_execution, hrow], hcmd, hrep, Nat.le_add_left 1 _, ?_⟩
      exact answerCommand_data_length hq c p w
  case undefined =>
    rcases exec_undefinedCode_cases p s with h | ⟨w, rest, -, -, -, hr, -⟩
    · exact h
    · omega

/-! Every row answers a next state -/

@[simp] theorem reply_pending (ans : Answer) (p : Master) (code : BitVec 8) :
    (ans.reply p code).pending = ans.state.pending := rfl

theorem acknowledge_wires (p : Master) (s : State) : (acknowledge p s).2.wires = s.wires := by
  unfold acknowledge
  cases s.offer p <;> simp

@[simp] theorem takeIackChange_pending (p : Master) (held : Bool) (w : Word) (s : State) :
    (takeIackChange p held w s).pending = s.pending := rfl

theorem busRead_pending {p : Master} {own : Word} {t s : State} (h : t.pending = s.pending) :
    (busRead p own t s).pending = s.pending := by
  rcases busRead_cases p own t s with hr | ⟨w, hr⟩ | hr <;> rw [hr]
  · exact h
  · rfl

theorem riseEvent_pending (src : Source) (s : State) : (riseEvent src s).pending = s.pending := by
  unfold riseEvent
  dsimp only
  split <;> simp

theorem fallEvent_pending (src : Source) (s : State) : (fallEvent src s).pending = s.pending := by
  unfold fallEvent
  split
  · rfl
  · split
    · simp [(withdrawSource_frame src s).pending]
    · rfl

theorem portResetEvent_pending (p : Master) (s : State) : (portResetEvent p s).pending = s.pending := by
  unfold portResetEvent
  split
  · rfl
  · split
    · rw [dispatchPass_pending]
      exact (sameTimebase_iff.2 (portResetPresent_timebase s p)).2.2.2.2.2
    · rfl

theorem hubRelease_pending (req : BitVec 24) (s : State) : (hubRelease req s).pending = s.pending := by
  simp only [hubRelease, hubReleaseState, (ignoreIackAssertions_frame masters s).pending]

/-- The row of a command keeps the queue of waiting commands. -/
theorem exec_execution_pending (p : Master) (c : Code) (s : State) :
    ∃ t, exec (Instr.execution p c) s = .next t ∧ t.pending = s.pending := by
  rcases exec_execution_cases p c s with h | ⟨w, rest, -, -, -, -, h⟩
  · exact ⟨s, h, rfl⟩
  · exact ⟨_, h, (reply_pending ..).trans (pending_of_wires (answerCommand_wires c p w s))⟩

theorem execution_of_executed {i : Instr} {p : Master} {c : Code} (h : i.executed = some (p, c)) :
    i = Instr.execution p c := by cases i <;> cases h <;> rfl

/-- The rows of the table, those that execute a command in one case. -/
theorem rowCases {motive : Instr → Prop} (command : ∀ p c, motive (Instr.execution p c))
    (undefinedCode : ∀ p, motive (.undefinedCode p)) (rise : ∀ n, motive (.rise n)) (fall : ∀ n, motive (.fall n))
    (hubReset : motive .hubReset) (hubResetRelease : ∀ req, motive (.hubResetRelease req))
    (portReset : ∀ p, motive (.portReset p)) (portResetRelease : ∀ p, motive (.portResetRelease p))
    (iackPulse : ∀ p, motive (.iackPulse p)) (iackRelease : ∀ p, motive (.iackRelease p))
    (ackRead : ∀ p, motive (.ackRead p)) (cmdWrite : ∀ p w, motive (.cmdWrite p w))
    (rplRead : ∀ p, motive (.rplRead p)) (windowWriteIgnored : ∀ p o w, motive (.windowWriteIgnored p o w))
    (tick : ∀ sm, motive (.tick sm)) (trefPeriod : ∀ sm, motive (.trefPeriod sm))
    (offerExpiry : ∀ m, motive (.offerExpiry m)) (deadlineExpiry : ∀ m src, motive (.deadlineExpiry m src))
    (i : Instr) : motive i := by
  cases h : i.executed with
  | some pc => exact execution_of_executed (p := pc.1) (c := pc.2) h ▸ command pc.1 pc.2
  | none =>
    cases i
    case undefinedCode p => exact undefinedCode p
    case rise n => exact rise n
    case fall n => exact fall n
    case hubReset => exact hubReset
    case hubResetRelease req => exact hubResetRelease req
    case portReset p => exact portReset p
    case portResetRelease p => exact portResetRelease p
    case iackPulse p => exact iackPulse p
    case iackRelease p => exact iackRelease p
    case ackRead p => exact ackRead p
    case cmdWrite p w => exact cmdWrite p w
    case rplRead p => exact rplRead p
    case windowWriteIgnored p o w => exact windowWriteIgnored p o w
    case tick sm => exact tick sm
    case trefPeriod sm => exact trefPeriod sm
    case offerExpiry m => exact offerExpiry m
    case deadlineExpiry m src => exact deadlineExpiry m src
    all_goals cases h

/-- What one row leaves: a next state, with the queue of waiting commands as it was. -/
def AnswersNext (s : State) (i : Instr) : Prop := ∃ t, exec i s = .next t ∧ t.pending = s.pending

/-- Settles O2, row by row. -/
theorem everyRowAnswersNextState : Obligations.EveryRowAnswersNextState := by
  unfold Obligations.EveryRowAnswersNextState
  intro i s
  show AnswersNext s i
  induction i using rowCases
  case command p c => exact exec_execution_pending p c s
  case undefinedCode p =>
    rcases exec_undefinedCode_cases p s with h | ⟨w, rest, -, -, -, -, h⟩ <;> exact ⟨_, h, rfl⟩
  case rise n =>
    refine ⟨_, rfl, ?_⟩
    split
    · exact riseEvent_pending _ _
    · rfl
  case fall n =>
    refine ⟨_, rfl, ?_⟩
    split
    · exact fallEvent_pending _ _
    · rfl
  case hubReset => exact ⟨_, rfl, by split <;> rfl⟩
  case hubResetRelease req =>
    refine ⟨_, rfl, ?_⟩
    split
    · exact hubRelease_pending req s
    · rfl
  case portReset p =>
    refine ⟨_, rfl, ?_⟩
    split
    · exact portResetEvent_pending p _
    · rfl
  case portResetRelease p =>
    refine ⟨_, rfl, ?_⟩
    split
    · exact (ignoreIackAssertion_frame _ p).pending
    · rfl
  case iackPulse p =>
    refine ⟨_, rfl, ?_⟩
    split
    · split
      · rfl
      · split
        · rfl
        · exact (takeIackChange_pending ..).trans (pending_of_wires (acknowledge_wires p s))
    · rfl
  case iackRelease p => exact ⟨_, rfl, by split <;> rfl⟩
  case ackRead p =>
    refine ⟨_, rfl, ?_⟩
    split
    · rfl
    · exact busRead_pending (pending_of_wires (acknowledge_wires p s))
  case cmdWrite p w => exact ⟨_, rfl, by split; rfl; split <;> rfl⟩
  case rplRead p =>
    refine ⟨_, rfl, ?_⟩
    split <;> exact busRead_pending rfl
  case windowWriteIgnored p o w => exact ⟨s, rfl, rfl⟩
  case tick sm => exact ⟨_, rfl, by split <;> rfl⟩
  case trefPeriod sm => exact ⟨_, rfl, by split; rfl; split; rfl; split <;> rfl⟩
  case offerExpiry m =>
    refine ⟨_, rfl, ?_⟩
    split
    · split
      · exact dispatchPass_pending _
      · rfl
    · rfl
  case deadlineExpiry m src =>
    refine ⟨_, rfl, ?_⟩
    split
    · rw [dispatchPass_pending]
      exact pending_of_wires (reclaimCharged_wires s m src)
    · rfl

end Sys2Proof.Machine

/-! PROOFS. The end of leaving, the fencing procedure, the port reset, a completion and a charged reclaim, record by
record (R43, R46, R49, R101, R118); and the rows they settle. -/

namespace Sys2Proof.Machine

open Sys2Proof.Safety

/-! Departure notices (R23, R24, R52) -/

theorem inheritedBy_eq {m k : Master} {s v : State} (hon : v.online k = canInherit s m k)
    (hr : ∀ i, v.route i = s.route i) : (inheritedBy m k v).map .inherited = inheritedNotices s m k := by
  simp only [inheritedBy, inheritedNotices, hon, hr]

theorem bindingPassage_port_eq {m k : Master} {s v : State} (hon : v.online k = canInherit s m k)
    (hr : ∀ i, v.route i = s.route i) :
    (bindingPassage m v).port k = noticedAll (inheritedNotices s m k) (v.port k) := by
  rw [bindingPassage_port, ← inheritedBy_eq hon hr, noticedAll, List.foldl_map]

/-- A departure announced: the passage is judged in `v`, where `m` is not ONLINE any more, and `n` goes out in `w`,
which at the routes and the other ports is as the passage left it. -/
theorem announced_of {m : Master} {n : Notice} {s v w : State} (hon : ∀ k, v.online k = canInherit s m k)
    (hvr : ∀ i, v.route i = s.route i) (hvp : ∀ k, k ≠ m → v.port k = s.port k)
    (hwr : ∀ i, w.route i = (bindingPassage m v).route i)
    (hwp : ∀ k, k ≠ m → w.port k = (bindingPassage m v).port k)
    (hpres : ∀ k, k ≠ m → w.present k = s.present k) : Announced m n s (notifyOthers m n w) := by
  refine ⟨fun src => ?_, fun k hk => ?_⟩
  · rw [notifyOthers_route, hwr, bindingPassage_route, hvr, show v.online = canInherit s m from funext hon]
  · rw [notifyOthers_port, hwp k hk, bindingPassage_port_eq (hon k) hvr, hvp k hk, hpres k hk]
    by_cases hp : s.present k = true
    · simp [hk, hp, noticedAll]
    · simp [hp]

theorem setPortState_ctx (m k : Master) (ps : PortState) (s : State) :
    (setPortState m ps s).ctx k = if m = k then { s.ctx m with portState := ps } else s.ctx k := by
  simp [setPortState, setCtx_ctx]

/-- Once `m` is not ONLINE, the masters that are ONLINE are those that can inherit from it. -/
theorem online_setPortState {m : Master} {ps : PortState} {s : State} (hps : ps ≠ .online) (k : Master) :
    (setPortState m ps s).online k = canInherit s m k := by
  by_cases h : m = k
  · subst h
    simp [State.online, setPortState_ctx, canInherit, hps]
  · simp [State.online, setPortState_ctx, canInherit, h, Ne.symm h]

theorem eq_of_queue {s t : State} (h : ∀ g, t.queue g = s.queue g) : t.queues = s.queues :=
  Vector.ext fun i hi => h ⟨i, hi⟩

theorem eq_of_tracker {s t : State} (h : ∀ i, t.tracker i = s.tracker i) : t.trackers = s.trackers :=
  Vector.ext fun i hi => h ⟨i, hi⟩

theorem eq_of_offer {s t : State} (h : ∀ k, t.offer k = s.offer k) : t.offers = s.offers :=
  Vector.ext fun i hi => h ⟨i, hi⟩

/-! The end of leaving (R43) -/

section
variable (m k : Master) (s : State)

theorem endLeaving_ctx :
    (endLeaving m s).ctx k =
      if m = k then { s.ctx m with portState := .offline, reclaimed := [], missCount := 0 } else s.ctx k := by
  split
  · next h => exact h ▸ endLeaving_ctx_self m s
  · next h => exact endLeaving_ctx_ne m k s h

theorem endLeaving_port_self :
    (endLeaving m s).port m = { s.port m with notices := [], noticeOverflow := false } := by
  have hb : ((bindingPassage m (setPortState m .offline s)).port m) = s.port m := by
    rw [bindingPassage_port_eq (s := s) (online_setPortState (by decide) m) (fun _ => rfl)]
    simp [inheritedNotices, canInherit, noticedAll]
    rfl
  simp [endLeaving, notifyOthers_port, clearNotices, hb]

/-- All of the end of leaving, in the form of the statements. -/
theorem leavingEnded_endLeaving : LeavingEnded m s (endLeaving m s) := by
  refine ⟨endLeaving_ctx_self m s, fun k hk => endLeaving_ctx_ne m k s (Ne.symm hk), endLeaving_port_self m s,
    announced_of (v := setPortState m .offline s) (online_setPortState (by decide)) (fun _ => rfl) (fun _ _ => rfl)
      (fun i => ?route) (fun k hk => ?port) (fun k hk => ?present), eq_of_tracker (endLeaving_tracker m s),
    eq_of_offer (endLeaving_offer m s), eq_of_queue (endLeaving_queue m s),
    sameTimebase_iff.2 (endLeaving_timebase s m)⟩
  case route => simp [clearNotices]
  case port => simp [clearNotices, Ne.symm hk]
  case present => simp [State.present, clearNotices, setPortState, Ne.symm hk]

end

/-! Interrupted sources (R15) -/

section
variable {s : State} {i : Source}

theorem edgeLine_iff : edgeLine s i = true ↔ isEdgeLine (s.route i) i := by
  simp [edgeLine, isLineSource, isEdgeLine]

@[simp] theorem interrupt_state (t : Tracker) (b : Bool) : (t.interrupt b).state = .pending := by
  unfold Tracker.interrupt
  split <;> rfl
@[simp] theorem interrupt_holder (t : Tracker) (b : Bool) : (t.interrupt b).holder = none := by
  unfold Tracker.interrupt
  split <;> rfl
@[simp] theorem interrupt_line (t : Tracker) (b : Bool) : (t.interrupt b).line = t.line := by
  unfold Tracker.interrupt
  split <;> rfl
@[simp] theorem interrupt_passSet (t : Tracker) (b : Bool) : (t.interrupt b).passSet = t.passSet := by
  unfold Tracker.interrupt
  split <;> rfl

theorem interrupted_interrupt (t : Tracker) : Interrupted (s.route i) i t (t.interrupt (edgeLine s i)) := by
  refine ⟨by simp, by simp, by simp, fun he => ?_, fun he => ?_⟩
  · rw [edgeLine_iff.2 he]
    unfold Tracker.interrupt
    cases ht : t.again <;> simp [Tracker.toPending, ht]
  · rw [Bool.eq_false_iff.2 (mt edgeLine_iff.1 he)]
    exact ⟨rfl, rfl⟩

/-- What an interrupted source is depends on its line and flags alone. -/
theorem interrupted_of_flags {r : Route} {t t' u u' : Tracker} (h : Interrupted r i t u) (hl : t'.line = t.line)
    (hm : t'.merged = t.merged) (ha : t'.again = t.again) (hu : u' = u ∨ ∃ x, u' = { u with passSet := x }) :
    Interrupted r i t' u' := by
  unfold Interrupted
  rw [hl, hm, ha]
  rcases hu with rfl | ⟨x, rfl⟩ <;> exact h

theorem setAdd_idem {n : Nat} (x : BitVec n) (m : Fin n) : setAdd (setAdd x m) m = setAdd x m := by
  simp [setAdd, BitVec.or_assoc]

theorem interrupt_idem (t : Tracker) (b : Bool) : (t.interrupt b).interrupt b = t.interrupt b := by
  cases b <;> cases h : t.again <;> simp [Tracker.interrupt, Tracker.toPending, h]

theorem interrupt_addPass (t : Tracker) (b : Bool) (m : Master) :
    (t.addPass m).interrupt b = (t.interrupt b).addPass m := by
  unfold Tracker.interrupt
  rw [show (t.addPass m).again = t.again from rfl]
  split <;> rfl

theorem addPass_idem (t : Tracker) (m : Master) : (t.addPass m).addPass m = t.addPass m := by
  simp [Tracker.addPass, setAdd_idem]

theorem restInterrupted_tracker (src : Source) (s : State) (i : Source) :
    (restInterrupted src s).tracker i =
      if src = i then (s.tracker i).interrupt (edgeLine s i) else s.tracker i := by
  rw [restInterrupted, updTracker_eq, setTracker_tracker]
  split
  · next h => rw [h]
  · rfl

/-- The stack with the entries of the sources `l` removed. -/
def stackWithout (l : List Source) (k : List Entry) : List Entry := k.filter (fun e => e.source ∉ l)

theorem stackWithout_cons (src : Source) (l : List Source) (k : List Entry) :
    stackWithout l (removeEntry src k) = stackWithout (src :: l) k := by
  rw [stackWithout, removeEntry, List.filter_filter, stackWithout]
  refine List.filter_congr fun e _ => ?_
  by_cases h : e.source = src <;> simp [h]

theorem stackWithout_own (k : List Entry) : stackWithout (k.map (·.source)) k = [] := by
  refine List.filter_eq_nil_iff.2 fun e he => ?_
  simpa using ⟨e, he, rfl⟩

end

/-! Reclaims at fencing (R46, step 2) -/

section
variable (m : Master) (e : Entry) (s : State)

theorem reclaimUncharged_tracker (i : Source) :
    (reclaimUncharged m s e).tracker i =
      if e.source = i then ((s.tracker i).interrupt (edgeLine s i)).addPass m else s.tracker i := by
  by_cases h : e.source = i
  · subst h
    simp [reclaimUncharged, restInterrupted_tracker]
    rfl
  · simp [reclaimUncharged, restInterrupted_tracker, h]

@[simp] theorem restInterrupted_ctx (src : Source) (k : Master) : (restInterrupted src s).ctx k = s.ctx k := rfl
@[simp] theorem restInterrupted_route (src i : Source) : (restInterrupted src s).route i = s.route i := rfl
@[simp] theorem restInterrupted_offer (src : Source) (k : Master) : (restInterrupted src s).offer k = s.offer k := rfl
@[simp] theorem restInterrupted_queue (src : Source) (g : SignalIndex) :
    (restInterrupted src s).queue g = s.queue g := rfl
@[simp] theorem restInterrupted_port (src : Source) (k : Master) : (restInterrupted src s).port k = s.port k := rfl

theorem reclaimUncharged_ctx (k : Master) :
    (reclaimUncharged m s e).ctx k =
      if m = k then
        { s.ctx m with
          stack := removeEntry e.source (s.ctx m).stack
          reclaimed := placedNewest e.source (s.ctx m).reclaimed }
      else s.ctx k := by
  by_cases h : m = k
  · subst h
    simp [reclaimUncharged, placeReclaimed_eq]
  · simp [reclaimUncharged, h]

@[simp] theorem reclaimUncharged_route (i : Source) : (reclaimUncharged m s e).route i = s.route i := by
  simp [reclaimUncharged]
@[simp] theorem reclaimUncharged_offer (k : Master) : (reclaimUncharged m s e).offer k = s.offer k := by
  simp [reclaimUncharged]
@[simp] theorem reclaimUncharged_queue (g : SignalIndex) : (reclaimUncharged m s e).queue g = s.queue g := by
  simp [reclaimUncharged]
@[simp] theorem reclaimUncharged_edgeLine (i : Source) : edgeLine (reclaimUncharged m s e) i = edgeLine s i := by
  simp [edgeLine]

@[simp] theorem reclaimUncharged_present (k : Master) : (reclaimUncharged m s e).present k = s.present k := by
  simp only [State.present, reclaimUncharged_ctx]
  split
  · next h => rw [h]
  · rfl

theorem reclaimUncharged_port (k : Master) :
    (reclaimUncharged m s e).port k =
      if m = k ∧ s.present m = true then noticedPort (.reclaimed e.source false) (s.port m) else s.port k := by
  by_cases h : m = k
  · subst h
    simp [reclaimUncharged, queueNotice_port, State.present]
  · simp [reclaimUncharged, queueNotice_port, h]

end

section
variable (m : Master) (l : List Entry) (s : State)

/-- `l` is a list of entries all reclaimed, uncharged, from `m`. -/
def reclaimAll (m : Master) (l : List Entry) (s : State) : State := l.foldl (reclaimUncharged m) s

theorem reclaimAll_cons (e : Entry) : reclaimAll m (e :: l) s = reclaimAll m l (reclaimUncharged m s e) := rfl

theorem reclaimAll_tracker (i : Source) :
    (reclaimAll m l s).tracker i =
      if i ∈ l.map (·.source) then ((s.tracker i).interrupt (edgeLine s i)).addPass m else s.tracker i := by
  induction l generalizing s with
  | nil => simp [reclaimAll]
  | cons e l ih =>
    rw [reclaimAll_cons, ih, reclaimUncharged_tracker, reclaimUncharged_edgeLine]
    by_cases h : e.source = i
    · simp [h, interrupt_addPass, interrupt_idem, addPass_idem]
    · simp [h, Ne.symm h]

theorem reclaimAll_ctx (k : Master) :
    (reclaimAll m l s).ctx k =
      if m = k then
        { s.ctx m with
          stack := stackWithout (l.map (·.source)) (s.ctx m).stack
          reclaimed := (l.map (·.source)).foldl (fun r src => placedNewest src r) (s.ctx m).reclaimed }
      else s.ctx k := by
  induction l generalizing s with
  | nil => by_cases h : m = k <;> simp [reclaimAll, stackWithout, h]
  | cons e l ih =>
    rw [reclaimAll_cons, ih, reclaimUncharged_ctx, reclaimUncharged_ctx]
    by_cases h : m = k <;> simp [h, stackWithout_cons]

@[simp] theorem reclaimAll_route (i : Source) : (reclaimAll m l s).route i = s.route i := by
  induction l generalizing s with
  | nil => rfl
  | cons e l ih => rw [reclaimAll_cons, ih, reclaimUncharged_route]

@[simp] theorem reclaimAll_offer (k : Master) : (reclaimAll m l s).offer k = s.offer k := by
  induction l generalizing s with
  | nil => rfl
  | cons e l ih => rw [reclaimAll_cons, ih, reclaimUncharged_offer]

@[simp] theorem reclaimAll_queue (g : SignalIndex) : (reclaimAll m l s).queue g = s.queue g := by
  induction l generalizing s with
  | nil => rfl
  | cons e l ih => rw [reclaimAll_cons, ih, reclaimUncharged_queue]

theorem reclaimAll_port (k : Master) :
    (reclaimAll m l s).port k =
      if m = k ∧ s.present m = true then
        noticedAll (l.map (fun e => .reclaimed e.source false)) (s.port m)
      else s.port k := by
  induction l generalizing s with
  | nil => by_cases h : m = k <;> simp [reclaimAll, noticedAll, h]
  | cons e l ih =>
    rw [reclaimAll_cons, ih, reclaimUncharged_port, reclaimUncharged_port, reclaimUncharged_present]
    by_cases h : m = k ∧ s.present m = true
    · obtain ⟨rfl, hs⟩ := h
      simp [hs, noticedAll]
    · simp [h]

end

/-! The fencing procedure (R46) -/

section
variable (m : Master) (s : State)

/-- The fencing procedure up to the binding passage. -/
def fencedRecords (m : Master) (s : State) : State :=
  let s2 := reclaimAll m (s.ctx m).stack (withdraw m s)
  setPortState m .fenced (s2.updCtx m (fun c => { c with missCount := 0 }))

theorem fenceMaster_eq :
    fenceMaster m s = notifyOthers m (.fenced m) (bindingPassage m (fencedRecords m s)) := by
  simp only [fenceMaster, fencedRecords, reclaimAll, withdraw_ctx]

theorem fencedRecords_ctx (k : Master) :
    (fencedRecords m s).ctx k =
      if m = k then
        { s.ctx m with
          portState := .fenced, stack := [], missCount := 0
          reclaimed := ((s.ctx m).stack.map (·.source)).foldl (fun l src => placedNewest src l) (s.ctx m).reclaimed }
      else s.ctx k := by
  by_cases h : m = k
  · subst h
    simp [fencedRecords, setPortState, reclaimAll_ctx, stackWithout_own]
  · simp [fencedRecords, setPortState, reclaimAll_ctx, h]

@[simp] theorem fencedRecords_route (i : Source) : (fencedRecords m s).route i = s.route i := by
  simp [fencedRecords, setPortState]

theorem fencedRecords_online (k : Master) : (fencedRecords m s).online k = canInherit s m k := by
  by_cases h : m = k
  · subst h
    simp [State.online, fencedRecords_ctx, canInherit]
  · simp [State.online, fencedRecords_ctx, canInherit, h, Ne.symm h]

theorem fencedRecords_port (k : Master) :
    (fencedRecords m s).port k =
      if m = k ∧ s.present m = true then
        noticedAll ((s.ctx m).stack.map (fun e => .reclaimed e.source false)) (s.port m)
      else s.port k := by
  simp [fencedRecords, setPortState, reclaimAll_port]

theorem fenceMaster_ctx (k : Master) :
    (fenceMaster m s).ctx k =
      if m = k then
        { s.ctx m with
          portState := .fenced, stack := [], missCount := 0
          reclaimed := ((s.ctx m).stack.map (·.source)).foldl (fun l src => placedNewest src l) (s.ctx m).reclaimed }
      else s.ctx k := by
  rw [fenceMaster_eq, notifyOthers_ctx, bindingPassage_ctx, fencedRecords_ctx]

theorem fenceMaster_tracker (i : Source) :
    (fenceMaster m s).tracker i =
      if i ∈ (s.ctx m).stack.map (·.source) then
        (((withdraw m s).tracker i).interrupt (edgeLine s i)).addPass m
      else (withdraw m s).tracker i := by
  rw [fenceMaster_eq, notifyOthers_tracker, bindingPassage_tracker]
  have he : edgeLine (withdraw m s) i = edgeLine s i := by simp [edgeLine]
  simp [fencedRecords, setPortState, reclaimAll_tracker, he]

theorem fenceMaster_offer (k : Master) : (fenceMaster m s).offer k = if m = k then none else s.offer k := by
  rw [fenceMaster_eq, notifyOthers_offer, bindingPassage_offer]
  simp [fencedRecords, setPortState, withdraw_offer]

theorem fenceMaster_route (i : Source) :
    (fenceMaster m s).route i = passedRoute m (canInherit s m) (s.route i) := by
  rw [fenceMaster_eq, notifyOthers_route, bindingPassage_route, fencedRecords_route,
    show (fencedRecords m s).online = canInherit s m from funext (fencedRecords_online m s)]

@[simp] theorem fenceMaster_queue (g : SignalIndex) : (fenceMaster m s).queue g = s.queue g := by
  rw [fenceMaster_eq, notifyOthers_queue, bindingPassage_queue]
  simp [fencedRecords, setPortState]

/-- All of the fencing procedure of a present master, in the form of the statements. -/
theorem fenced_fenceMaster (hp : s.present m = true) : Fenced m s (fenceMaster m s) := by
  have hw := withdraw_frame m s
  refine ⟨by rw [fenceMaster_ctx, if_pos rfl], fun k hk => by rw [fenceMaster_ctx, if_neg (Ne.symm hk)],
    by rw [fenceMaster_offer, if_pos rfl], fun k hk => by rw [fenceMaster_offer, if_neg (Ne.symm hk)],
    fun e he => ?entry, fun src hsrc => ?other, ?port, ?announced, eq_of_queue (fenceMaster_queue m s),
    sameTimebase_iff.2 (fenceMaster_timebase s m)⟩
  case entry =>
    have hmem : e.source ∈ (s.ctx m).stack.map (·.source) := List.mem_map_of_mem he
    rw [fenceMaster_tracker, if_pos hmem]
    refine ⟨?_, ?_⟩
    · exact interrupted_of_flags (interrupted_interrupt _) (hw.line _).symm (hw.merged _).symm (hw.again _).symm
        (.inr ⟨_, rfl⟩)
    · simp [Tracker.addPass, withdraw_passSet]
  case other =>
    rw [fenceMaster_tracker, if_neg (by simpa using hsrc), withdraw_tracker]
  case port =>
    have hn : inheritedNotices s m m = [] := by simp [inheritedNotices, canInherit]
    rw [fenceMaster_eq, notifyOthers_port, if_neg (by simp), bindingPassage_port_eq (s := s)
      (fencedRecords_online m s m) (fencedRecords_route m s), hn, fencedRecords_port, if_pos ⟨rfl, hp⟩]
    rfl
  case announced =>
    rw [fenceMaster_eq]
    refine announced_of (fencedRecords_online m s) (fencedRecords_route m s) (fun k hk => ?_) (fun _ => rfl)
      (fun _ _ => rfl) (fun k hk => ?_)
    · rw [fencedRecords_port, if_neg fun h => hk h.1.symm]
    · simp [State.present, fencedRecords_ctx, Ne.symm hk]

end

/-! The port reset of a present master (R49) -/

section
variable (m : Master) (l : List Entry) (s : State)

/-- `l` is a list of entries all released from `m`. -/
def releaseAll (m : Master) (l : List Entry) (s : State) : State := l.foldl (releaseEntry m) s

theorem releaseAll_cons (e : Entry) : releaseAll m (e :: l) s = releaseAll m l (releaseEntry m s e) := rfl

theorem releaseAll_tracker (i : Source) :
    (releaseAll m l s).tracker i =
      if i ∈ l.map (·.source) then (s.tracker i).interrupt (edgeLine s i) else s.tracker i := by
  induction l generalizing s with
  | nil => simp [releaseAll]
  | cons e l ih =>
    have hstep : (releaseEntry m s e).tracker i =
        if e.source = i then (s.tracker i).interrupt (edgeLine s i) else s.tracker i :=
      restInterrupted_tracker e.source _ i
    rw [releaseAll_cons, ih, hstep, show edgeLine (releaseEntry m s e) i = edgeLine s i from rfl]
    by_cases h : e.source = i
    · simp [h, interrupt_idem]
    · simp [h, Ne.symm h]

theorem releaseAll_ctx (k : Master) :
    (releaseAll m l s).ctx k =
      if m = k then { s.ctx m with stack := stackWithout (l.map (·.source)) (s.ctx m).stack } else s.ctx k := by
  induction l generalizing s with
  | nil => by_cases h : m = k <;> simp [releaseAll, stackWithout, h]
  | cons e l ih =>
    rw [releaseAll_cons, ih]
    by_cases h : m = k <;> simp [releaseEntry, h, stackWithout_cons]

@[simp] theorem releaseAll_route (i : Source) : (releaseAll m l s).route i = s.route i := by
  induction l generalizing s with
  | nil => rfl
  | cons e l ih => rw [releaseAll_cons, ih]; rfl

@[simp] theorem releaseAll_offer (k : Master) : (releaseAll m l s).offer k = s.offer k := by
  induction l generalizing s with
  | nil => rfl
  | cons e l ih => rw [releaseAll_cons, ih]; rfl

@[simp] theorem releaseAll_queue (g : SignalIndex) : (releaseAll m l s).queue g = s.queue g := by
  induction l generalizing s with
  | nil => rfl
  | cons e l ih => rw [releaseAll_cons, ih]; rfl

@[simp] theorem releaseAll_port (k : Master) : (releaseAll m l s).port k = s.port k := by
  induction l generalizing s with
  | nil => rfl
  | cons e l ih => rw [releaseAll_cons, ih]; rfl

/-- The port reset up to the binding passage: the master OFFLINE, its offer and its entries gone. -/
def departedRecords (m : Master) (s : State) : State :=
  setPortState m .offline (releaseAll m (s.ctx m).stack (withdraw m s))

theorem portResetPresent_eq :
    portResetPresent m s =
      notifyOthers m (.left m) (resetPortRecords m (bindingPassage m (departedRecords m s))) := by
  simp only [portResetPresent, departedRecords, releaseAll, withdraw_ctx]

theorem departedRecords_ctx (k : Master) :
    (departedRecords m s).ctx k =
      if m = k then { s.ctx m with portState := .offline, stack := [] } else s.ctx k := by
  by_cases h : m = k
  · subst h
    simp [departedRecords, setPortState, releaseAll_ctx, stackWithout_own]
  · simp [departedRecords, setPortState, releaseAll_ctx, h]

@[simp] theorem departedRecords_route (i : Source) : (departedRecords m s).route i = s.route i := by
  simp [departedRecords, setPortState]

@[simp] theorem departedRecords_port (k : Master) : (departedRecords m s).port k = s.port k := by
  simp [departedRecords, setPortState]

theorem departedRecords_online (k : Master) : (departedRecords m s).online k = canInherit s m k := by
  by_cases h : m = k
  · subst h
    simp [State.online, departedRecords_ctx, canInherit]
  · simp [State.online, departedRecords_ctx, canInherit, h, Ne.symm h]

theorem resetPortRecords_ctx (k : Master) :
    (resetPortRecords m s).ctx k =
      if m = k then { Context.reset with portState := (s.ctx m).portState, stack := (s.ctx m).stack }
      else s.ctx k := by
  by_cases h : m = k
  · subst h
    simp [resetPortRecords, Context.reset]
  · simp [resetPortRecords, h]

theorem resetPortRecords_port (k : Master) :
    (resetPortRecords m s).port k =
      if m = k then
        { s.port m with
          commands := [], replies := [], notices := [], overrun := false, noticeOverflow := false, ackWord := 0 }
      else s.port k := by
  by_cases h : m = k
  · subst h
    simp [resetPortRecords]
  · simp [resetPortRecords, h]

@[simp] theorem resetPortRecords_route (i : Source) : (resetPortRecords m s).route i = s.route i := rfl
@[simp] theorem resetPortRecords_tracker (i : Source) : (resetPortRecords m s).tracker i = s.tracker i := rfl
@[simp] theorem resetPortRecords_offer (k : Master) : (resetPortRecords m s).offer k = s.offer k := rfl
@[simp] theorem resetPortRecords_queue (g : SignalIndex) : (resetPortRecords m s).queue g = s.queue g := rfl

theorem portResetPresent_ctx (k : Master) :
    (portResetPresent m s).ctx k = if m = k then Context.reset else s.ctx k := by
  rw [portResetPresent_eq, notifyOthers_ctx, resetPortRecords_ctx, bindingPassage_ctx, bindingPassage_ctx,
    departedRecords_ctx, departedRecords_ctx]
  by_cases h : m = k <;> simp [h, Context.reset]

theorem portResetPresent_tracker (i : Source) :
    (portResetPresent m s).tracker i =
      if i ∈ (s.ctx m).stack.map (·.source) then ((withdraw m s).tracker i).interrupt (edgeLine s i)
      else (withdraw m s).tracker i := by
  have he : edgeLine (withdraw m s) i = edgeLine s i := by simp [edgeLine]
  rw [portResetPresent_eq, notifyOthers_tracker]
  simp [departedRecords, setPortState, releaseAll_tracker, he]

theorem portResetPresent_offer (k : Master) :
    (portResetPresent m s).offer k = if m = k then none else s.offer k := by
  rw [portResetPresent_eq, notifyOthers_offer]
  simp [departedRecords, setPortState, withdraw_offer]

theorem portResetPresent_route (i : Source) :
    (portResetPresent m s).route i = passedRoute m (canInherit s m) (s.route i) := by
  rw [portResetPresent_eq, notifyOthers_route, resetPortRecords_route, bindingPassage_route, departedRecords_route,
    show (departedRecords m s).online = canInherit s m from funext (departedRecords_online m s)]

@[simp] theorem portResetPresent_queue (g : SignalIndex) : (portResetPresent m s).queue g = s.queue g := by
  rw [portResetPresent_eq, notifyOthers_queue]
  simp [departedRecords, setPortState]

theorem portResetPresent_port_self :
    (portResetPresent m s).port m =
      { s.port m with
        commands := [], replies := [], notices := [], overrun := false, noticeOverflow := false, ackWord := 0 } := by
  have hn : inheritedNotices s m m = [] := by simp [inheritedNotices, canInherit]
  rw [portResetPresent_eq, notifyOthers_port, if_neg (by simp), resetPortRecords_port, if_pos rfl,
    bindingPassage_port_eq (s := s) (departedRecords_online m s m) (departedRecords_route m s), hn,
    departedRecords_port]
  rfl

theorem portResetPresent_announced : Announced m (.left m) s (portResetPresent m s) := by
  rw [portResetPresent_eq]
  refine announced_of (departedRecords_online m s) (departedRecords_route m s) (fun k _ => departedRecords_port m s k)
    (fun _ => resetPortRecords_route ..) (fun k hk => ?_) (fun k hk => ?_)
  · rw [resetPortRecords_port, if_neg (Ne.symm hk)]
  · simp [State.present, resetPortRecords_ctx, departedRecords_ctx, Ne.symm hk]

end

section
variable {p : Master} {s : State}

@[simp] theorem takePrstChange_tracker (held : Bool) (i : Source) : (takePrstChange p held s).tracker i = s.tracker i :=
  rfl
@[simp] theorem takePrstChange_route (held : Bool) (i : Source) : (takePrstChange p held s).route i = s.route i := rfl
@[simp] theorem takePrstChange_ctx (held : Bool) (k : Master) : (takePrstChange p held s).ctx k = s.ctx k := rfl
@[simp] theorem takePrstChange_offer (held : Bool) (k : Master) : (takePrstChange p held s).offer k = s.offer k := rfl
@[simp] theorem takePrstChange_queue (held : Bool) (g : SignalIndex) : (takePrstChange p held s).queue g = s.queue g :=
  rfl
@[simp] theorem takePrstChange_present (held : Bool) (k : Master) :
    (takePrstChange p held s).present k = s.present k := rfl

theorem takePrstChange_port (held : Bool) (k : Master) :
    (takePrstChange p held s).port k = if p = k then { s.port p with resetHeld := held } else s.port k := by
  rw [takePrstChange_eq, setPort_port]
  rfl

/-- All of the port reset of a present master, in the form of the statements. -/
theorem portReset_portResetPresent : PortReset p s (portResetPresent p (takePrstChange p true s)) := by
  have hw := withdraw_frame p (takePrstChange p true s)
  have ha := portResetPresent_announced p (takePrstChange p true s)
  have ht := sameTimebase_iff.2 (portResetPresent_timebase (takePrstChange p true s) p)
  obtain ⟨hhub, -, hperiod, htick, hsettings, hpending⟩ := ht
  refine ⟨by rw [portResetPresent_ctx, if_pos rfl], fun k hk => by rw [portResetPresent_ctx, if_neg (Ne.symm hk)]; rfl,
    by rw [portResetPresent_offer, if_pos rfl],
    fun k hk => by rw [portResetPresent_offer, if_neg (Ne.symm hk)]; rfl, fun e he => ?entry, fun src hsrc => ?other,
    ?port, ⟨ha.1, fun k hk => ?announced⟩, eq_of_queue (portResetPresent_queue p _), hhub, hperiod, htick, hsettings,
    hpending⟩
  case entry =>
    have hmem : e.source ∈ ((takePrstChange p true s).ctx p).stack.map (·.source) := List.mem_map_of_mem he
    rw [portResetPresent_tracker, if_pos hmem]
    refine ⟨?_, ?_⟩
    · exact interrupted_of_flags (interrupted_interrupt (s := s) _) (hw.line _).symm (hw.merged _).symm
        (hw.again _).symm (.inl rfl)
    · simp [withdraw_passSet]
  case other =>
    rw [portResetPresent_tracker, if_neg (by simpa using hsrc), withdraw_tracker]
    rfl
  case port =>
    rw [portResetPresent_port_self, takePrstChange_port, if_pos rfl]
  case announced =>
    rw [ha.2 k hk, takePrstChange_port, if_neg (Ne.symm hk)]
    rfl

end

/-- Settles O7. -/
theorem portResetOfPresentMaster : Obligations.PortResetOfPresentMaster := by
  unfold Obligations.PortResetOfPresentMaster
  intro p s hl hc hh hn hp
  have hp' : (takePrstChange p true s).present p = true := by simpa [State.present] using hp
  have hh' : ¬ (takePrstChange p true s).hubHeld = true := by
    rw [show (takePrstChange p true s).hubHeld = s.hubHeld from rfl, hh]
    decide
  refine ⟨_, portReset_portResetPresent, ?inputs, ?row⟩
  case inputs => exact inputs_of_timebase (portResetPresent_timebase _ p)
  case row => rw [exec_portReset_of_waits hl hc hn, portResetEvent, if_neg hh', if_pos hp']

/-! A completion (R101, R14) -/

section
variable (m : Master) (src : Source) (s : State)

/-- The completion of the entry for `src`, the end of leaving apart (R101, steps 1 to 3). -/
def completedRecords (m : Master) (src : Source) (s : State) : State :=
  restCompleted src (s.updCtx m (fun c => { c with stack := removeEntry src c.stack, missCount := 0 }))

theorem completeEntry_eq :
    completeEntry m src s =
      if (s.ctx m).portState = .leaving ∧ removeEntry src (s.ctx m).stack = [] then
        endLeaving m (completedRecords m src s)
      else completedRecords m src s := by
  simp [completeEntry, completedRecords]

theorem completedRecords_ctx (k : Master) :
    (completedRecords m src s).ctx k =
      if m = k then { s.ctx m with stack := removeEntry src (s.ctx m).stack, missCount := 0 } else s.ctx k := by
  simp [completedRecords, setCtx_ctx]

theorem completedRecords_tracker (i : Source) :
    (completedRecords m src s).tracker i =
      if src = i then
        match signalIndex i with
        | some g => (s.tracker i).completeSignal (s.queue g).tail
        | none => (s.tracker i).completeLine (s.route i).trigger
      else s.tracker i := by
  by_cases h : src = i
  · subst h
    rw [completedRecords, restCompleted_tracker_self, if_pos rfl]
    rfl
  · rw [completedRecords, restCompleted_tracker_ne _ _ _ h, if_neg h]
    rfl

@[simp] theorem completedRecords_route (i : Source) : (completedRecords m src s).route i = s.route i := by
  simp [completedRecords]
@[simp] theorem completedRecords_offer (k : Master) : (completedRecords m src s).offer k = s.offer k := by
  simp [completedRecords]
@[simp] theorem completedRecords_port (k : Master) : (completedRecords m src s).port k = s.port k := by
  simp [completedRecords]
theorem completedRecords_queue (g : SignalIndex) :
    (completedRecords m src s).queue g = if signalIndex src = some g then (s.queue g).tail else s.queue g := by
  simp [completedRecords, restCompleted_queue]
@[simp] theorem completedRecords_timebase : (completedRecords m src s).timebase = s.timebase := by
  simp [completedRecords]

theorem completeLine_eq_restedLine (t : Tracker) (trigger : Trigger) :
    t.completeLine trigger = restedLine trigger t := by
  cases trigger with
  | edge => cases h : t.again <;> simp [Tracker.completeLine, restedLine, h, Tracker.toIdle, Tracker.toPending, idled]
  | level => cases h : t.line <;> simp [Tracker.completeLine, restedLine, h, Tracker.toIdle, Tracker.toPending, idled]

theorem completeSignal_eq (t : Tracker) (l : List Signal) :
    t.completeSignal l =
      if l = [] then idled t else { t with state := .pending, holder := none, passSet := 0 } := by
  unfold Tracker.completeSignal
  cases l <;> rfl

theorem completed_completedRecords {rest : List Entry} (hrest : removeEntry src (s.ctx m).stack = rest) :
    Completed m src rest s (completedRecords m src s) := by
  refine ⟨fun k => ?ctx, fun j hj => ?others, fun hline => ⟨?line, eq_of_queue fun g => ?lineQueue⟩,
    fun g hg => ⟨?queue, fun k hk => ?otherQueue, ?signal⟩, ?routes, ?offers, ?ports,
    sameTimebase_iff.2 (completedRecords_timebase m src s)⟩
  case ctx =>
    rw [completedRecords_ctx, hrest]
    by_cases h : m = k
    · simp [h]
    · simp [h, Ne.symm h]
  case others => rw [completedRecords_tracker, if_neg (Ne.symm hj)]
  case line =>
    have hs : signalIndex src = none := signalIndex_eq_none.2 (by simp [isLineSource, hline])
    rw [completedRecords_tracker, if_pos rfl, hs, ← completeLine_eq_restedLine]
  case lineQueue =>
    have hs : signalIndex src = none := signalIndex_eq_none.2 (by simp [isLineSource, hline])
    simp [completedRecords_queue, hs]
  case queue => simp [completedRecords_queue, hg]
  case otherQueue =>
    subst hg
    rw [completedRecords_queue, signalIndex_signalSource, if_neg]
    simpa using Ne.symm hk
  case signal =>
    subst hg
    rw [completedRecords_tracker, if_pos rfl, signalIndex_signalSource, ← completeSignal_eq]
  all_goals
    unfold completedRecords restCompleted
    cases signalIndex src <;> rfl

end

/-- Removing the one entry for `src`. -/
theorem removeEntry_split {src : Source} {l r : List Entry} {e : Entry} (he : e.source = src)
    (hother : ∀ x ∈ l ++ r, x.source ≠ src) : removeEntry src (l ++ e :: r) = l ++ r := by
  have hf : removeEntry src (l ++ r) = l ++ r :=
    List.filter_eq_self.2 fun x hx => by simpa using hother x hx
  rw [← hf]
  simp [removeEntry, he]

section
variable {p : Master} {s : State}

/-- An answer that completes an entry, as the statements say it: with the end of leaving where the last entry of a
LEAVING master went, and without it otherwise (R101, R107). -/
theorem completion_row {c : Code} {code : Nat} {src : Source} {rest : List Entry}
    (hrest : removeEntry src (s.ctx p).stack = rest)
    (hrow : exec (Instr.execution p c) s = .next (replied (dispatchPass (completeEntry p src s)) p code .ok [])) :
    ∃ v, Completed p src rest s v ∧
      ((s.ctx p).portState = .leaving → rest = [] →
        ∃ u, LeavingEnded p v u ∧ exec (Instr.execution p c) s = .next (replied (dispatchPass u) p code .ok [])) ∧
      ((s.ctx p).portState = .online ∨ rest ≠ [] →
        exec (Instr.execution p c) s = .next (replied (dispatchPass v) p code .ok [])) := by
  refine ⟨completedRecords p src s, completed_completedRecords p src s hrest, fun hl hr => ?ends, fun hs => ?stays⟩
  case ends =>
    exact ⟨_, leavingEnded_endLeaving p _, by rw [hrow, completeEntry_eq, if_pos ⟨hl, hrest.trans hr⟩]⟩
  case stays =>
    rw [hrow, completeEntry_eq, if_neg]
    rintro ⟨hl, hr⟩
    rcases hs with hs | hs
    · simp [hs] at hl
    · exact hs (hrest.symm.trans hr)

theorem portStateRefusal_done {c : Code} (hc : c = .done ∨ c = .doneSrc)
    (hp : (s.ctx p).portState = .online ∨ (s.ctx p).portState = .leaving) :
    portStateRefusal c (s.ctx p).portState = none := by
  rcases hp with hp | hp <;> rcases hc with hc | hc <;> rw [hp, hc] <;> rfl

end

/-- Settles O23. -/
theorem doneCompletesTheNewestEntry : Obligations.DoneCompletesTheNewestEntry := by
  unfold Obligations.DoneCompletesTheNewestEntry
  intro p s hr hp
  have href := portStateRefusal_done (c := .done) (.inl rfl) hp
  refine ⟨fun l e hstack hother => ?entry, fun hstack => ?empty⟩
  case entry =>
    have hrest : removeEntry e.source (s.ctx p).stack = l := by
      rw [hstack, removeEntry_split rfl (by simpa using hother), List.append_nil]
    have he : effectOf .done p (.ofNat 8 0) (.ofNat 16 0) s =
        answer .ok (dispatchPass (completeEntry p e.source s)) := by
      simp [effectOf, doneEffect, hstack]
    exact completion_row (c := .done) hrest (exec_of_ready (c := .done) hr (by decide) href he)
  case empty =>
    have he : effectOf .done p (.ofNat 8 0) (.ofNat 16 0) s = answer .notHeld s := by
      simp [effectOf, doneEffect, hstack]
    exact exec_of_ready (c := .done) hr (by decide) href he

theorem operandsOk_doneSrc (src : Source) : operandsOk .doneSrc (.ofNat 8 src.val) (.ofNat 16 0) = true := by
  revert src
  decide

/-- Settles O24. -/
theorem doneSrcConsultsStackThenReclaimed : Obligations.DoneSrcConsultsStackThenReclaimed := by
  unfold Obligations.DoneSrcConsultsStackThenReclaimed
  intro p src s hr hp
  have href := portStateRefusal_done (c := .doneSrc) (.inr rfl) hp
  have row {st : Status} {u : State}
      (he : effectOf .doneSrc p (.ofNat 8 src.val) (.ofNat 16 0) s = answer st u) :
      exec (.doneSrc p) s = .next (replied u p 0x1F st []) :=
    exec_of_ready (c := .doneSrc) hr (operandsOk_doneSrc src) href he
  refine ⟨fun l e r hstack hsrc hother => ?entry, fun hno hrec => row ?late, fun hno hrec => row ?notHeld⟩
  case entry =>
    refine completion_row (c := .doneSrc) (hstack ▸ removeEntry_split hsrc hother) (row ?_)
    simp [effectOf, doneSrcEffect, hstack, hsrc]
  case late =>
    have : ¬ ∃ e ∈ (s.ctx p).stack, e.source = src := fun ⟨e, he, hs⟩ => hno e he hs
    simp [effectOf, doneSrcEffect, this, hrec, filter_bne]
  case notHeld =>
    have : ¬ ∃ e ∈ (s.ctx p).stack, e.source = src := fun ⟨e, he, hs⟩ => hno e he hs
    simp [effectOf, doneSrcEffect, this, hrec]

/-! A charged reclaim (R118) -/

section
variable (m : Master) (src : Source) (s : State)

/-- The charged reclaim of the entry for `src`, in steps 1 to 5 of R118. -/
def chargedRecords (m : Master) (src : Source) (s : State) : State :=
  let s1 := s.updCtx m (fun c => { c with stack := removeEntry src c.stack })
  let s2 := (restInterrupted src s1).updTracker src (fun t => t.addPass m)
  let s3 := s2.updCtx m (fun c => { c with reclaimed := placeReclaimed src c.reclaimed })
  (queueNotice m (.reclaimed src true) s3).updCtx m (fun c => { c with missCount := c.missCount + 1 })

theorem chargedRecords_ctx (k : Master) :
    (chargedRecords m src s).ctx k =
      if m = k then
        { s.ctx m with
          stack := removeEntry src (s.ctx m).stack, missCount := (s.ctx m).missCount + 1
          reclaimed := placedNewest src (s.ctx m).reclaimed }
      else s.ctx k := by
  by_cases h : m = k
  · subst h
    simp [chargedRecords, placeReclaimed_eq]
  · simp [chargedRecords, h]

theorem chargedRecords_tracker (i : Source) :
    (chargedRecords m src s).tracker i =
      if src = i then ((s.tracker i).interrupt (edgeLine s i)).addPass m else s.tracker i := by
  by_cases h : src = i
  · subst h
    simp [chargedRecords, restInterrupted_tracker]
    rfl
  · simp [chargedRecords, restInterrupted_tracker, h]

@[simp] theorem chargedRecords_route (i : Source) : (chargedRecords m src s).route i = s.route i := by
  simp [chargedRecords]
@[simp] theorem chargedRecords_offer (k : Master) : (chargedRecords m src s).offer k = s.offer k := by
  simp [chargedRecords]
@[simp] theorem chargedRecords_queue (g : SignalIndex) : (chargedRecords m src s).queue g = s.queue g := by
  simp [chargedRecords]
@[simp] theorem chargedRecords_timebase : (chargedRecords m src s).timebase = s.timebase := by
  simp [chargedRecords, restInterrupted]
@[simp] theorem chargedRecords_settings : (chargedRecords m src s).settings = s.settings :=
  settings_of_timebase (chargedRecords_timebase m src s)

theorem chargedRecords_port (k : Master) :
    (chargedRecords m src s).port k =
      if m = k ∧ s.present m = true then noticedPort (.reclaimed src true) (s.port m) else s.port k := by
  by_cases h : m = k
  · subst h
    simp [chargedRecords, queueNotice_port, State.present]
  · simp [chargedRecords, queueNotice_port, h]

theorem reclaimCharged_eq :
    reclaimCharged m src s =
      if (s.ctx m).missCount + 1 = s.settings.fenceThreshold then fenceMaster m (chargedRecords m src s)
      else if (s.ctx m).portState = .leaving ∧ removeEntry src (s.ctx m).stack = [] then
        endLeaving m (chargedRecords m src s)
      else chargedRecords m src s := by
  have hs : (chargedRecords m src s).settings = s.settings := chargedRecords_settings m src s
  have hc : (chargedRecords m src s).ctx m = _ := chargedRecords_ctx m src s m
  rw [if_pos rfl] at hc
  have he : reclaimCharged m src s =
      if ((chargedRecords m src s).ctx m).missCount = (chargedRecords m src s).settings.fenceThreshold then
        fenceMaster m (chargedRecords m src s)
      else if ((chargedRecords m src s).ctx m).portState = .leaving ∧ ((chargedRecords m src s).ctx m).stack = [] then
        endLeaving m (chargedRecords m src s)
      else chargedRecords m src s := rfl
  rw [he, hs, hc]

theorem chargedReclaim_chargedRecords {rest : List Entry} (hp : s.present m = true)
    (hrest : removeEntry src (s.ctx m).stack = rest) : ChargedReclaim m src rest s (chargedRecords m src s) := by
  refine ⟨fun k => ?ctx, ?interrupted, ?passSet, fun j hj => ?others, fun k => ?port, ?routes, ?offers, ?queues,
    sameTimebase_iff.2 (chargedRecords_timebase m src s)⟩
  case ctx =>
    rw [chargedRecords_ctx, hrest]
    by_cases h : m = k
    · simp [h]
    · simp [h, Ne.symm h]
  case interrupted =>
    rw [chargedRecords_tracker, if_pos rfl]
    exact interrupted_of_flags (interrupted_interrupt _) rfl rfl rfl (.inr ⟨_, rfl⟩)
  case passSet =>
    rw [chargedRecords_tracker, if_pos rfl]
    simp [Tracker.addPass]
  case others => rw [chargedRecords_tracker, if_neg (Ne.symm hj)]
  case port =>
    rw [chargedRecords_port]
    by_cases h : m = k
    · subst h
      simp [hp]
    · simp [h, Ne.symm h]
  case routes => exact (queueNotice_frame m _ _).routes
  case offers => exact (queueNotice_frame m _ _).offers
  case queues => exact (queueNotice_frame m _ _).queues

end

theorem exec_deadlineExpiry_of_raised {m : Master} {src : Source} {s : State} (hn : NoResetWaits s)
    (hr : deadlineRaised s m src = true) :
    exec (.deadlineExpiry m src) s = .next (dispatchPass (reclaimCharged m src s)) := by
  have hn' := (resetWaits_eq_false s).2 hn
  simp [exec, execDeadlineExpiry, hn', hr]

/-- Settles O25. -/
theorem deadlineExpiryReclaimsCharged : Obligations.DeadlineExpiryReclaimsCharged := by
  unfold Obligations.DeadlineExpiryReclaimsCharged
  intro m src s
  refine ⟨fun l e r hstack hsrc hother hraised hn hps => ?reclaim, fun hno => ?void⟩
  case reclaim =>
    have hp : s.present m = true := by rcases hps with h | h <;> simp [State.present, h]
    have hrest : removeEntry src (s.ctx m).stack = l ++ r := hstack ▸ removeEntry_split hsrc hother
    have hrow := exec_deadlineExpiry_of_raised hn (m := m) (src := src)
      (by simp [deadlineRaised, hstack, hsrc, hraised])
    rw [reclaimCharged_eq, hrest] at hrow
    refine ⟨_, chargedReclaim_chargedRecords m src s hp hrest, fun ht => ?fence, fun ht hl he => ?leave,
      fun ht hs => ?plain⟩
    case fence =>
      have hp' : (chargedRecords m src s).present m = true := by
        simpa [State.present, chargedRecords_ctx] using hp
      exact ⟨_, fenced_fenceMaster m _ hp', by rw [hrow, if_pos ht]⟩
    case leave => exact ⟨_, leavingEnded_endLeaving m _, by rw [hrow, if_neg ht, if_pos ⟨hl, he⟩]⟩
    case plain =>
      rw [hrow, if_neg ht, if_neg]
      rintro ⟨hl, he⟩
      rcases hs with hs | hs
      · simp [hs] at hl
      · exact hs he
  case void =>
    have hd : deadlineRaised s m src = false := by
      simpa [deadlineRaised] using hno
    simp [exec, execDeadlineExpiry, hd]

/-! Membership -/

/-- Settles O26. -/
theorem joinAdmitsAnOfflineMaster : Obligations.JoinAdmitsAnOfflineMaster := by
  unfold Obligations.JoinAdmitsAnOfflineMaster
  intro p s hr
  refine ⟨fun hp => ?offline, fun hp => ?online⟩
  case offline =>
    have hoff : s.online p = false := by simp [State.online, hp]
    have hf := notifyOthers_frame p (.joined p) (setPortState p .online s)
    refine ⟨notifyOthers p (.joined p) (setPortState p .online s), ?self, fun k hk => ?others, ?port,
      fun k hk => ?ports, hf.trackers, hf.routes, hf.offers, hf.queues,
      sameTimebase_iff.2 ((notifyOthers_timebase ..).trans rfl), ?row⟩
    case self => rw [notifyOthers_ctx, setPortState_ctx, if_pos rfl]
    case others => rw [notifyOthers_ctx, setPortState_ctx, if_neg (Ne.symm hk)]
    case port =>
      rw [notifyOthers_port, if_neg (by simp)]
      rfl
    case ports =>
      have hpres : (setPortState p .online s).present k = s.present k := by
        simp [State.present, setPortState_ctx, Ne.symm hk]
      rw [notifyOthers_port, hpres]
      by_cases h : s.present k = true <;> simp [hk, h] <;> rfl
    case row =>
      refine exec_of_ready (c := .join) hr (by decide) (by rw [hp]; rfl) (st := .ok) (data := []) (lost := false) ?_
      simp [effectOf, joinEffect, hoff]
      rfl
  case online =>
    refine exec_of_ready_online (c := .join) hr hp (by decide) ?_
    simp [effectOf, joinEffect, State.online, hp]
    rfl

/-- Settles O27. -/
theorem leaveEndsOrBeginsTheLeaving : Obligations.LeaveEndsOrBeginsTheLeaving := by
  unfold Obligations.LeaveEndsOrBeginsTheLeaving
  intro p s hr hp
  refine ⟨fun hs => ⟨_, leavingEnded_endLeaving p (withdraw p s), ?ends⟩, fun hs => ?begins⟩
  case ends =>
    refine exec_of_ready_online (c := .leave) hr hp (by decide) ?_
    simp only [effectOf, leaveEffect, withdraw_ctx, hs, if_true]
    rfl
  case begins =>
    refine exec_of_ready_online (c := .leave) hr hp (by decide) ?_
    simp only [effectOf, leaveEffect, withdraw_ctx, hs, if_false, setPortState, updCtx_eq]
    rfl

/-- Settles O28. -/
theorem fenceAndUnfenceMoveAMaster : Obligations.FenceAndUnfenceMoveAMaster := by
  unfold Obligations.FenceAndUnfenceMoveAMaster
  intro p m s hp
  refine ⟨fun hr => ?fence, fun hr => ?unfence⟩
  case fence =>
    have row {st : Status} {u : State}
        (he : fenceEffect p (.ofNat 8 m.val) (.ofNat 16 0) s = answer st u) :
        exec (.fence p) s = .next (replied u p 0x03 st []) :=
      exec_of_ready_online (c := .fence) hr hp (operandsOk_master (by decide) m) he
    refine ⟨fun h => row ?own, fun h => row ?away, fun hne h => ?present⟩
    case own => simp [fenceEffect, h]
    case away =>
      have hne : m ≠ p := by
        rintro rfl
        simp [hp] at h
      rcases h with h | h <;> simp [fenceEffect, hne, h]
    case present =>
      have hpres : s.present m = true := by rcases h with h | h <;> simp [State.present, h]
      refine ⟨_, fenced_fenceMaster m s hpres, row ?_⟩
      rcases h with h | h <;> simp [fenceEffect, hne, h]
  case unfence =>
    have row {st : Status} {u : State}
        (he : unfenceEffect p (.ofNat 8 m.val) (.ofNat 16 0) s = answer st u) :
        exec (.unfence p) s = .next (replied u p 0x04 st []) :=
      exec_of_ready_online (c := .unfence) hr hp (operandsOk_master (by decide) m) he
    refine ⟨fun h => row ?readmitted, fun h => row ?refused⟩
    case readmitted => simp [unfenceEffect, h, readmit, clearNotices]
    case refused => simp [unfenceEffect, h]

end Sys2Proof.Machine

/-! PROOFS. Every row as one event: what it writes before its dispatch pass, whether the pass follows, and what its
guards say. The invariants are proved over these events. -/

namespace Sys2Proof.Machine

open Sys2Proof.Safety

/-! The records of chapters 1 to 7 -/

/-- `t` has the records of `s`: they differ in inputs, in the timebase, and in what the window and the lines of a port
reach, at most. -/
structure SameRecords (s t : State) : Prop where
  tracker  : ∀ i, t.tracker i = s.tracker i
  route    : ∀ i, t.route i = s.route i
  ctx      : ∀ m, t.ctx m = s.ctx m
  offer    : ∀ m, t.offer m = s.offer m
  queue    : ∀ g, t.queue g = s.queue g
  settings : t.settings = s.settings
  notices  : ∀ p, (t.port p).notices = (s.port p).notices ∧ (t.port p).noticeOverflow = (s.port p).noticeOverflow

theorem SameRecords.refl (s : State) : SameRecords s s := by constructor <;> intros <;> simp

theorem SameRecords.trans {s t u : State} (h : SameRecords s t) (k : SameRecords t u) : SameRecords s u where
  tracker i := (k.tracker i).trans (h.tracker i)
  route i := (k.route i).trans (h.route i)
  ctx m := (k.ctx m).trans (h.ctx m)
  offer m := (k.offer m).trans (h.offer m)
  queue g := (k.queue g).trans (h.queue g)
  settings := k.settings.trans h.settings
  notices p := ⟨(k.notices p).1.trans (h.notices p).1, (k.notices p).2.trans (h.notices p).2⟩

section
variable (s : State) (p : Master)

/-- A port update that keeps the notices keeps the records. -/
theorem sameRecords_setPort (q : Port) (hn : q.notices = (s.port p).notices)
    (ho : q.noticeOverflow = (s.port p).noticeOverflow) : SameRecords s (s.setPort p q) where
  tracker _ := rfl
  route _ := rfl
  ctx _ := rfl
  offer _ := rfl
  queue _ := rfl
  settings := rfl
  notices k := by
    rw [setPort_port]
    split
    · next h => exact h ▸ ⟨hn, ho⟩
    · exact ⟨rfl, rfl⟩

theorem sameRecords_setInputs (i : Inputs) : SameRecords s (s.setInputs i) := by constructor <;> intros <;> simp

theorem sameRecords_withPending (q : List Instr) : SameRecords s (s.withPending q) := by
  constructor <;> intros <;> simp

theorem sameRecords_takeIackChange (held : Bool) (w : Word) : SameRecords s (takeIackChange p held w s) :=
  (sameRecords_setInputs s _).trans (sameRecords_setPort _ p _ rfl rfl)

theorem sameRecords_takePrstChange (held : Bool) : SameRecords s (takePrstChange p held s) :=
  (sameRecords_setInputs s _).trans (sameRecords_setPort _ p _ rfl rfl)

theorem sameRecords_takeLineChange (n : Line) : SameRecords s (takeLineChange n s) := sameRecords_setInputs s _

theorem sameRecords_returnRead (w : Word) : SameRecords s (returnRead p w s) := sameRecords_setPort s p _ rfl rfl

theorem sameRecords_samplePeriod (sm : Samples) : SameRecords s (samplePeriod sm s) := sameRecords_setInputs s _

theorem sameRecords_timebase (period : Fin 64) (tick : Tick) :
    SameRecords s { s with period := period, tick := tick } := by constructor <;> intros <;> trivial

theorem sameRecords_ignoreIackAssertion : SameRecords s (ignoreIackAssertion s p) := by
  unfold ignoreIackAssertion
  split
  · exact sameRecords_takeIackChange s p true 0
  · exact .refl s

theorem sameRecords_ignoreIackAssertions (l : List Master) : SameRecords s (l.foldl ignoreIackAssertion s) := by
  induction l generalizing s with
  | nil => exact .refl s
  | cons p l ih => exact (sameRecords_ignoreIackAssertion s p).trans (ih _)

/-- A reply reaches the window of its port alone. -/
theorem sameRecords_reply (ans : Answer) (code : BitVec 8) : SameRecords ans.state (ans.reply p code) :=
  sameRecords_setPort _ p _ rfl rfl

end

/-! The events -/

/-- `d` is the context `c` with masks, threshold or modes set; the nesting mode only on an empty stack (R53 to R57). -/
structure ModesSet (c d : Context) : Prop where
  portState : d.portState = c.portState
  stack     : d.stack = c.stack
  missCount : d.missCount = c.missCount
  reclaimed : d.reclaimed = c.reclaimed
  nesting   : d.nesting = c.nesting ∨ c.stack = []

/-- With the context `d`, `p` is eligible for no source it was not eligible for, and keeps the offer it holds, so no pass
is needed (R53, R55, R57). -/
structure ModesNarrow (s : State) (p : Master) (d : Context) : Prop where
  eligible : ∀ src, eligible (s.setCtx p d) src p = true → eligible s src p = true
  offer    : ∀ o, s.offer p = some o → d.lineMode = (s.ctx p).lineMode ∧
    (Machine.eligible s o.source p = true → Machine.eligible (s.setCtx p d) o.source p = true)

/-- `r` is the route record that a permitted configuration command of an ONLINE master, or BIND, leaves (R20 to R32). -/
structure RouteSet (s : State) (src : Source) (r : Route) : Prop where
  binder   : ∀ m, r.binder = some m → (s.route src).binder = some m ∨ (s.ctx m).portState = .online
  heir     : ∀ h, r.heir = some h →
    (∃ m, r.binder = some m ∧ m ≠ h) ∨
      ((s.route src).heir = some h ∧ (r.binder = (s.route src).binder ∨ (s.route src).binder = none))
  trigger  : r.trigger = (s.route src).trigger
  autodone : r.trigger = .level → r.autodone = true → (s.route src).autodone = true

/-- `r` asks for no pass: targets and urgency stand, and the source is not enabled, nor disabled while OFFERED. -/
structure RouteQuiet (s : State) (src : Source) (r : Route) : Prop where
  targets : r.targets = (s.route src).targets
  urgency : r.urgency = (s.route src).urgency
  enabled : r.enabled = true → (s.route src).enabled = true
  offered : (s.tracker src).state = .offered → r.enabled = (s.route src).enabled

/-- The route record of `src` replaced, and its pass set. -/
def configureRoute (src : Source) (r : Route) (x : MasterSet) (s : State) : State :=
  (s.setRoute src r).setTracker src { s.tracker src with passSet := x }

/-- A rise at a tracker of trigger `trigger` (R3, R9, R10). -/
def risen (trigger : Trigger) (t : Tracker) : Tracker :=
  match trigger with
  | .edge => (t.setLine true).edgeEvent
  | .level => (t.setLine true).assertEvent

/-- The trigger set and the pending state recomputed (R28). -/
def retriggered (src : Source) (trigger : Trigger) (s : State) : State :=
  (s.setRoute src { s.route src with trigger := trigger }).setTracker src ((s.tracker src).retrigger trigger)

/-- The rows that write what is taken of the request lines (R3, R4). -/
def movesLines : Instr → Bool
  | .rise _ => true
  | .fall _ => true
  | .hubReset => true
  | .hubResetRelease _ => true
  | _ => false

/-- `Event i s b u`: row `i` takes the records of `s` to those of `u`, before a dispatch pass when `b`. -/
inductive Event : Instr → State → Bool → State → Prop
  /-- Nothing changes: refusals, queries, rows that wait, and rows of the window and the timebase. -/
  | idle (i : Instr) (s : State) : Event i s false s
  /-- NOTICE (R162). -/
  | notice (i : Instr) (p : Master) (s : State) : Event i s false (popNotice p s)
  /-- RISE (R3, R9, R10). -/
  | rise (i : Instr) (n : Line) (s : State) (hi : movesLines i = true) :
      Event i s (decide ((s.tracker (lineSource n)).state = .idle))
        (s.setTracker (lineSource n) (risen (s.route (lineSource n)).trigger (s.tracker (lineSource n))))
  /-- FALL of an EDGE source (R3). -/
  | fallEdge (i : Instr) (n : Line) (s : State) (he : (s.route (lineSource n)).trigger = .edge)
      (hi : movesLines i = true) :
      Event i s false (s.setTracker (lineSource n) ((s.tracker (lineSource n)).setLine false))
  /-- FALL of a LEVEL source that is not OFFERED (R11). -/
  | fallLevel (i : Instr) (n : Line) (s : State) (he : (s.route (lineSource n)).trigger = .level)
      (hs : (s.tracker (lineSource n)).state ≠ .offered) (hi : movesLines i = true) :
      Event i s false (s.setTracker (lineSource n) ((s.tracker (lineSource n)).setLine false).deassertEvent)
  /-- FALL of an OFFERED LEVEL source, its offer withdrawn (R11); it stays OFFERED only without a holder, which R7
  excludes. -/
  | fallOffered (i : Instr) (n : Line) (s : State) (he : (s.route (lineSource n)).trigger = .level)
      (hs : (s.tracker (lineSource n)).state = .pending ∨
        ((s.tracker (lineSource n)).state = .offered ∧ (s.tracker (lineSource n)).holder = none))
      (hi : movesLines i = true) :
      Event i s true (s.setTracker (lineSource n) ((s.tracker (lineSource n)).setLine false).toIdle)
  /-- HUB_RESET (R159). -/
  | hubReset (i : Instr) (s : State) (hi : i = .hubReset) : Event i s false (hubResetState s)
  /-- HUB_RESET_RELEASE (R4). -/
  | hubRelease (i : Instr) (req : BitVec 24) (s : State) (hi : movesLines i = true) :
      Event i s false (hubReleaseState req s)
  /-- PORT_RESET of a present master (R49). -/
  | portReset (i : Instr) (p : Master) (s : State) (hi : i = .portReset p) : Event i s true (portResetPresent p s)
  /-- PORT_RESET of an OFFLINE master (R49). -/
  | portResetOffline (i : Instr) (p : Master) (s : State) (hi : i = .portReset p)
      (hp : (s.ctx p).portState = .offline) : Event i s false (resetPortRecords p s)
  /-- TICK (R111). -/
  | tick (i : Instr) (x : Tick) (s : State) : Event i s false (raiseExpiries x s)
  /-- OFFER_EXPIRY and PASS (R79, R81). -/
  | lapse (i : Instr) (p : Master) (o : Offer) (s : State) (ho : s.offer p = some o) :
      Event i s true (lapseOffer p o s)
  /-- DEADLINE_EXPIRY below the fence threshold (R118). -/
  | reclaim (i : Instr) (m : Master) (src : Source) (s : State) (he : ∃ e ∈ (s.ctx m).stack, e.source = src)
      (ht : (s.ctx m).missCount + 1 ≠ s.settings.fenceThreshold) : Event i s true (chargedRecords m src s)
  /-- DEADLINE_EXPIRY at the fence threshold (R123). -/
  | reclaimFence (i : Instr) (m : Master) (src : Source) (s : State) (he : ∃ e ∈ (s.ctx m).stack, e.source = src) :
      Event i s true (fenceMaster m (chargedRecords m src s))
  /-- DEADLINE_EXPIRY of the last entry of a LEAVING master (R121). -/
  | reclaimLeave (i : Instr) (m : Master) (src : Source) (s : State) (he : ∃ e ∈ (s.ctx m).stack, e.source = src)
      (hr : removeEntry src (s.ctx m).stack = []) : Event i s true (endLeaving m (chargedRecords m src s))
  /-- ACK_READ, IACK_PULSE, TAKE and POLL (R93 to R95). -/
  | take (i : Instr) (p : Master) (src : Source) (via : Via) (s : State) (h : PollCandidate s p src) :
      Event i s true (takeSource p src via s)
  /-- JOIN (R41). -/
  | join (i : Instr) (p : Master) (s : State) (hi : i = .join p) (hp : (s.ctx p).portState = .offline) :
      Event i s true (notifyOthers p (.joined p) (setPortState p .online s))
  /-- LEAVE on an empty stack (R42, R43). -/
  | leaveEmpty (i : Instr) (p : Master) (s : State) (hs : (s.ctx p).stack = []) : Event i s true (endLeaving p s)
  /-- LEAVE beside entries (R42). -/
  | leaveBusy (i : Instr) (p : Master) (s : State) (hp : (s.ctx p).portState = .online) :
      Event i s true (setPortState p .leaving s)
  /-- FENCE (R45, R46). -/
  | fence (i : Instr) (m : Master) (s : State)
      (hp : (s.ctx m).portState = .online ∨ (s.ctx m).portState = .leaving) : Event i s true (fenceMaster m s)
  /-- UNFENCE (R48). -/
  | unfence (i : Instr) (m : Master) (s : State) (hp : (s.ctx m).portState = .fenced) : Event i s true (readmit m s)
  /-- MASK, UNMASK, THRESH, NEST, OPEN, QUIET and LOUD (R53 to R57), past any withdrawal. -/
  | modes (i : Instr) (p : Master) (d : Context) (s : State) (b : Bool)
      (hi : i ∈ [.mask p, .unmask p, .thresh p, .nest p, .openMode p, .quiet p, .loud p])
      (hd : ModesSet (s.ctx p) d) (hb : b = false → ModesNarrow s p d) : Event i s b (s.setCtx p d)
  /-- SETCLASS and SETOFFER (R84, R113). -/
  | settings (i : Instr) (h : Settings) (s : State) (hf : h.fenceThreshold = s.settings.fenceThreshold) :
      Event i s false (s.setSettings h)
  /-- SETFENCE (R124). -/
  | setFence (i : Instr) (h : Settings) (s : State) (h1 : 1 ≤ h.fenceThreshold) (h7 : h.fenceThreshold ≤ 7) :
      Event i s false (clearMisses (s.setSettings h))
  /-- BIND, UNBIND, HEIR, ROUTE, URGE, AUTO, LIMIT, ENABLE and DISABLE (R20 to R32), past any withdrawal. -/
  | configure (i : Instr) (src : Source) (r : Route) (x : MasterSet) (s : State) (b : Bool) (hr : RouteSet s src r)
      (hx : x = (s.tracker src).passSet ∨ x = 0) (hb : b = false → RouteQuiet s src r ∧ x = (s.tracker src).passSet) :
      Event i s b (configureRoute src r x s)
  /-- TRIG (R27, R28). -/
  | trig (i : Instr) (src : Source) (trigger : Trigger) (s : State) (b : Bool) (hsrc : isLineSource src = true)
      (hs : (s.tracker src).state = .idle ∨ (s.tracker src).state = .pending) (he : (s.route src).enabled = false)
      (ha : trigger = .level → (s.route src).autodone = false) : Event i s b (retriggered src trigger s)
  /-- FLUSH (R139). -/
  | flush (i : Instr) (g : SignalIndex) (s : State) : Event i s false (flushQueue g s)
  /-- RAISE of a source that is not IDLE (R134). -/
  | raise (i : Instr) (g : SignalIndex) (x : Signal) (s : State) (hl : (s.queue g).length < 4)
      (hs : (s.tracker (signalSource g)).state ≠ .idle) : Event i s false (s.setQueue g (s.queue g ++ [x]))
  /-- RAISE of an IDLE source (R134). -/
  | raiseIdle (i : Instr) (g : SignalIndex) (x : Signal) (s : State) (hl : (s.queue g).length < 4)
      (hs : (s.tracker (signalSource g)).state = .idle) :
      Event i s true ((s.setQueue g (s.queue g ++ [x])).setTracker (signalSource g)
        { s.tracker (signalSource g) with state := .pending })
  /-- DONE and DONESRC (R101). -/
  | complete (i : Instr) (p : Master) (src : Source) (s : State) (he : ∃ e ∈ (s.ctx p).stack, e.source = src) :
      Event i s true (completedRecords p src s)
  /-- DONE and DONESRC of the last entry of a LEAVING master (R107). -/
  | completeLeave (i : Instr) (p : Master) (src : Source) (s : State) (he : ∃ e ∈ (s.ctx p).stack, e.source = src)
      (hr : removeEntry src (s.ctx p).stack = []) : Event i s true (endLeaving p (completedRecords p src s))
  /-- DONESRC of a reclaimed source (R102). -/
  | late (i : Instr) (p : Master) (src : Source) (s : State) :
      Event i s false (s.setCtx p { s.ctx p with reclaimed := (s.ctx p).reclaimed.filter (· != src) })

/-- The pass that ends an event, where one does (R68). -/
def afterPass (b : Bool) (u : State) : State := if b then dispatchPass u else u

/-- `s1` is `s`, or, in an event that a pass follows, `s` with an offer withdrawn (R63, R69). -/
def Withdrawn (b : Bool) (s s1 : State) : Prop :=
  s1 = s ∨ (b = true ∧ ((∃ m, s1 = withdraw m s) ∨ ∃ src, s1 = withdrawSource src s))

/-- `t` is what the event of row `i` leaves of `s`: a withdrawal, the event itself and the pass. -/
def Leads (i : Instr) (s t : State) : Prop :=
  ∃ b s1 u, Withdrawn b s s1 ∧ Event i s1 b u ∧ t = afterPass b u

section
variable {i : Instr} {s u : State} {b : Bool}

theorem leads_event (h : Event i s b u) : Leads i s (afterPass b u) := ⟨b, s, u, .inl rfl, h, rfl⟩
theorem leads_quiet (h : Event i s false u) : Leads i s u := leads_event h
theorem leads_pass (h : Event i s true u) : Leads i s (dispatchPass u) := leads_event h
theorem leads_idle (i : Instr) (s : State) : Leads i s s := leads_quiet (.idle i s)

theorem leads_withdraw {m : Master} (h : Event i (withdraw m s) true u) : Leads i s (dispatchPass u) :=
  ⟨true, _, u, .inr ⟨rfl, .inl ⟨m, rfl⟩⟩, h, rfl⟩

theorem leads_withdrawSource {src : Source} (h : Event i (withdrawSource src s) true u) : Leads i s (dispatchPass u) :=
  ⟨true, _, u, .inr ⟨rfl, .inr ⟨src, rfl⟩⟩, h, rfl⟩

theorem leads_answer {st : Status} (h : Leads i s u) : Leads i s (answer st u).state := h

theorem leads_answer_pass {st : Status} (h : Event i s true u) : Leads i s (answer st (dispatchPass u)).state :=
  leads_answer (leads_pass h)

theorem leads_takeAnswer {p : Master} {src : Source} {via : Via} (h : PollCandidate s p src) :
    Leads i s (takeAnswer p src via s).state := by
  rw [takeAnswer, answerData_state]
  exact leads_pass (.take i p src via s h)

end

/-! A withdrawal before, rather than after, the event's own writes -/

section
variable (s : State)

theorem withdraw_setCtx (m k : Master) (c : Context) : withdraw m (s.setCtx k c) = (withdraw m s).setCtx k c := by
  unfold withdraw
  rw [setCtx_offer]
  cases s.offer m <;> rfl

theorem withdrawSource_setRoute (src i : Source) (r : Route) :
    withdrawSource src (s.setRoute i r) = (withdrawSource src s).setRoute i r := by
  unfold withdrawSource
  rw [setRoute_tracker]
  split <;> rfl

theorem withdrawSource_tracker_self (src : Source) :
    (withdrawSource src s).tracker src = s.tracker src ∨
      (withdrawSource src s).tracker src = (s.tracker src).toPending := by
  unfold withdrawSource
  split
  · exact .inr (by simp)
  · exact .inl rfl

theorem withdrawSource_configureRoute (src : Source) (r : Route) (x : MasterSet) :
    withdrawSource src (configureRoute src r x s) = configureRoute src r x (withdrawSource src s) := by
  unfold withdrawSource
  have ht : (configureRoute src r x s).tracker src = { s.tracker src with passSet := x } := by simp [configureRoute]
  rw [ht]
  dsimp only
  split
  · simp only [configureRoute, updTracker_eq, setTracker_tracker_self, setTracker_setTracker, setOffer_tracker]
    apply State.ext <;> simp [State.setTracker, State.setRoute, State.setOffer, Tracker.toPending]
  · rfl

theorem configureRoute_keep (src : Source) (r : Route) :
    configureRoute src r (s.tracker src).passSet s = s.setRoute src r := by
  have := setTracker_get (s.setRoute src r) src
  exact this

end

/-! Configuration commands -/

section
variable {p : Master} {src : Source} {s : State} {own : Answer}

/-- The caller may configure: it is the binder, or the route is unbound and need not be bound (R19). -/
theorem permissionRefusal_none {b : Bool} (h : permissionRefusal b p src s = none) :
    (s.route src).binder = some p ∨ ((s.route src).binder = none ∧ b = false) := by
  unfold permissionRefusal at h
  cases hb : (s.route src).binder with
  | none =>
    cases b
    · exact .inr ⟨rfl, rfl⟩
    · simp [hb] at h
  | some m =>
    by_cases hm : m = p
    · exact .inl (hm ▸ rfl)
    · simp [hb, hm] at h

theorem leads_configured {i : Instr} {b : Bool} (h : permissionRefusal b p src s = none → Leads i s own.state) :
    Leads i s (configured b p src s own).state := by
  unfold configured
  cases hr : permissionRefusal b p src s with
  | some st => exact leads_idle i s
  | none => exact h hr

/-- A route record whose binder, heir, trigger and autodone stand. -/
theorem routeSet_of_same {r : Route} (hb : r.binder = (s.route src).binder) (hh : r.heir = (s.route src).heir)
    (ht : r.trigger = (s.route src).trigger) (ha : r.autodone = (s.route src).autodone) : RouteSet s src r where
  binder _ hm := .inl (hb ▸ hm)
  heir _ hx := .inr ⟨hh ▸ hx, .inl hb⟩
  trigger := ht
  autodone _ h := ha ▸ h

/-- A route record that asks for no pass: all that a pass reads stands. -/
theorem routeQuiet_of_same {r : Route} (ht : r.targets = (s.route src).targets)
    (hu : r.urgency = (s.route src).urgency) (he : r.enabled = (s.route src).enabled) : RouteQuiet s src r where
  targets := ht
  urgency := hu
  enabled h := he ▸ h
  offered _ := he

theorem leads_setRoute {i : Instr} {r : Route} (hr : RouteSet s src r) (hq : RouteQuiet s src r) :
    Leads i s (s.setRoute src r) := by
  rw [← configureRoute_keep]
  exact leads_quiet (.configure i src r _ s false hr (.inl rfl) fun _ => ⟨hq, rfl⟩)

theorem leads_setRoute_pass {i : Instr} {r : Route} (hr : RouteSet s src r) :
    Leads i s (dispatchPass (s.setRoute src r)) := by
  rw [← configureRoute_keep]
  exact leads_pass (.configure i src r _ s true hr (.inl rfl) nofun)

/-- A route set and the offer of its source withdrawn, with a pass. -/
theorem leads_configureRoute_withdrawSource {i : Instr} {r : Route} {x : MasterSet}
    (hr : RouteSet s src r) (hx : x = (s.tracker src).passSet ∨ x = 0) :
    Leads i s (dispatchPass (withdrawSource src (configureRoute src r x s))) := by
  rw [withdrawSource_configureRoute]
  have hrt : (withdrawSource src s).route src = s.route src := withdrawSource_route src s src
  have hps : ((withdrawSource src s).tracker src).passSet = (s.tracker src).passSet := by
    rcases withdrawSource_tracker_self s src with h | h <;> rw [h]
    rfl
  refine leads_withdrawSource (.configure i src r x _ true ?_ (hps ▸ hx) nofun)
  exact
    { binder := fun m hm => by simpa using hr.binder m hm
      heir := fun h hh => by simpa using hr.heir h hh
      trigger := hrt ▸ hr.trigger
      autodone := hrt ▸ hr.autodone }

end

/-! The modes -/

section
variable {p : Master} {s : State}

theorem eligible_setCtx_iff {d : Context} {src : Source} :
    eligible (s.setCtx p d) src p = true ↔
      d.lineMode = .line ∧ setHas (s.route src).targets p = true ∧ d.portState = .online ∧
        setHas (s.tracker src).passSet p = false ∧ setHas d.maskSet src = false ∧
        UrgencySuits (s.route src).urgency d ∧ d.stack.length < 8 := by
  rw [eligible_iff, eligibleToPoll_iff, setCtx_ctx_self, setCtx_route, setCtx_tracker]

theorem eligible_self_iff {src : Source} :
    eligible s src p = true ↔
      (s.ctx p).lineMode = .line ∧ setHas (s.route src).targets p = true ∧ (s.ctx p).portState = .online ∧
        setHas (s.tracker src).passSet p = false ∧ setHas (s.ctx p).maskSet src = false ∧
        UrgencySuits (s.route src).urgency (s.ctx p) ∧ (s.ctx p).stack.length < 8 := by
  rw [eligible_iff, eligibleToPoll_iff]

/-- MASK of a source whose offer the caller does not hold. -/
theorem modesNarrow_mask {src : Source} (h : ¬ OwnOffer s p src) :
    ModesNarrow s p { s.ctx p with maskSet := setAdd (s.ctx p).maskSet src } where
  eligible j hj := by
    rw [eligible_setCtx_iff] at hj
    rw [eligible_self_iff]
    obtain ⟨hl, ht, ho, hps, hm, rest⟩ := hj
    simp only [setHas_setAdd, Bool.or_eq_false_iff] at hm
    exact ⟨hl, ht, ho, hps, by simp [hm], rest⟩
  offer o ho := by
    refine ⟨rfl, fun hel => ?_⟩
    have hne : o.source ≠ src := fun he => h (ownOffer_iff.2 ⟨o, ho, he⟩)
    rw [eligible_self_iff] at hel
    rw [eligible_setCtx_iff]
    obtain ⟨hl, ht, hon, hps, hm, rest⟩ := hel
    exact ⟨hl, ht, hon, hps, by simp [hm, Ne.symm hne], rest⟩

/-- NEST and OPEN, on an empty stack. -/
theorem modesNarrow_nesting {mode : NestMode} (hs : (s.ctx p).stack = []) :
    ModesNarrow s p { s.ctx p with nesting := mode } := by
  have he (j : Source) : eligible (s.setCtx p { s.ctx p with nesting := mode }) j p = eligible s j p := by
    rw [Bool.eq_iff_iff, eligible_setCtx_iff, eligible_self_iff]
    simp [UrgencySuits, hs]
  exact { eligible := fun j hj => he j ▸ hj, offer := fun o _ => ⟨rfl, fun h => (he o.source).symm ▸ h⟩ }

/-- QUIET without an offer. -/
theorem modesNarrow_quiet (h : s.offer p = none) : ModesNarrow s p { s.ctx p with lineMode := .quiet } where
  eligible j hj := by simp [eligible_setCtx_iff] at hj
  offer o ho := by simp [h] at ho

/-- The withdrawal of an offer that fails, and the pass after it; else nothing. -/
theorem leads_withdrawWhen {i : Instr} {fails : Offer → Bool} {d : Context}
    (hi : i ∈ [.mask p, .unmask p, .thresh p, .nest p, .openMode p, .quiet p, .loud p]) (hd : ModesSet (s.ctx p) d)
    (hb : (∀ o, s.offer p = some o → fails o = false) → ModesNarrow s p d) :
    Leads i s (withdrawWhen fails p (s.setCtx p d)) := by
  by_cases h : ∃ o, s.offer p = some o ∧ fails o = true
  · obtain ⟨o, ho, hf⟩ := h
    rw [withdrawWhen_of_fails (s := s.setCtx p d) (o := o) ho hf, ← withdraw_eq_withdrawnOffer, withdraw_setCtx]
    exact leads_withdraw (.modes i p d _ true hi (by simpa using hd) nofun)
  · have hn : ∀ o, s.offer p = some o → fails o = false := fun o ho => by
      simpa using fun hf => h ⟨o, ho, hf⟩
    rw [withdrawWhen_of_suits (s := s.setCtx p d) hn]
    exact leads_quiet (.modes i p d s false hi hd fun _ => hb hn)

theorem withdrawBelow_cases (p : Master) (s : State) : withdrawBelow p s = s ∨ withdrawBelow p s = withdraw p s := by
  unfold withdrawBelow
  split
  · split
    · exact .inr rfl
    · exact .inl rfl
  · exact .inl rfl

theorem withdrawNonTarget_cases (src : Source) (s : State) :
    withdrawNonTarget src s = s ∨ withdrawNonTarget src s = withdrawSource src s := by
  unfold withdrawNonTarget
  split
  · split
    · exact .inl rfl
    · exact .inr rfl
  · exact .inl rfl

theorem withdrawUnurgent_cases (src : Source) (s : State) :
    withdrawUnurgent src s = s ∨ withdrawUnurgent src s = withdrawSource src s := by
  unfold withdrawUnurgent
  split
  · split
    · exact .inr rfl
    · exact .inl rfl
  · exact .inl rfl

end

/-! The effect of each command as an event -/

/-- The port state of a caller whose command is accepted, but for JOIN, DONE, DONESRC and the queries (R40). -/
theorem online_of_accepted {c : Code} {ps : PortState} (h : portStateRefusal c ps = none)
    (hc : c ≠ .join ∧ c ≠ .done ∧ c ≠ .doneSrc ∧ isQuery c = false) : ps = .online := by
  cases ps
  · simp [portStateRefusal, hc] at h
  · rfl
  · simp [portStateRefusal, hc] at h
  · simp [portStateRefusal, hc] at h

theorem leads_completeEntry {i : Instr} {p : Master} {src : Source} {s : State}
    (he : ∃ e ∈ (s.ctx p).stack, e.source = src) : Leads i s (dispatchPass (completeEntry p src s)) := by
  rw [completeEntry_eq]
  split
  · next h => exact leads_pass (.completeLeave i p src s he h.2)
  · exact leads_pass (.complete i p src s he)

section
variable {i : Instr} {p : Master} {a : BitVec 8} {b : BitVec 16} {s : State}

theorem joinEffect_leads (hp : portStateRefusal .join (s.ctx p).portState = none) :
    Leads (.join p) s (joinEffect p a b s).state := by
  unfold joinEffect
  split
  · exact leads_idle _ s
  · next hon =>
    refine leads_answer_pass (.join _ p s rfl ?_)
    cases hps : (s.ctx p).portState <;> simp_all [State.online, portStateRefusal, isQuery]

theorem leaveEffect_leads (hon : (s.ctx p).portState = .online) : Leads i s (leaveEffect p a b s).state := by
  unfold leaveEffect
  refine leads_answer ?_
  split
  · next hs => exact leads_withdraw (.leaveEmpty _ p _ hs)
  · exact leads_withdraw (.leaveBusy _ p _ (by simpa using hon))

theorem fenceEffect_leads : Leads i s (fenceEffect p a b s).state := by
  unfold fenceEffect
  split
  · exact leads_idle _ s
  · cases h : (s.ctx (masterOf a)).portState with
    | offline => exact leads_idle _ s
    | fenced => exact leads_idle _ s
    | online => exact leads_answer_pass (.fence _ _ s (.inl h))
    | leaving => exact leads_answer_pass (.fence _ _ s (.inr h))

theorem unfenceEffect_leads : Leads i s (unfenceEffect p a b s).state := by
  unfold unfenceEffect
  split
  · next h => exact leads_answer_pass (.unfence _ _ s h)
  · exact leads_idle _ s

theorem maskEffect_leads : Leads (.mask p) s (maskEffect p a b s).state := by
  refine leads_answer (leads_withdrawWhen (by simp) ⟨rfl, rfl, rfl, rfl, .inl rfl⟩ fun hn => modesNarrow_mask ?_)
  intro hown
  obtain ⟨o, ho, hs⟩ := ownOffer_iff.1 hown
  simpa [hs] using hn o ho

theorem unmaskEffect_leads : Leads (.unmask p) s (unmaskEffect p a b s).state :=
  leads_answer_pass (.modes _ p _ s true (by simp) ⟨rfl, rfl, rfl, rfl, .inl rfl⟩ nofun)

theorem threshEffect_leads : Leads (.thresh p) s (threshEffect p a b s).state := by
  simp only [threshEffect, answer_state, updCtx_eq]
  rcases withdrawBelow_cases p (s.setCtx p { s.ctx p with threshold := thresholdOf a }) with h | h <;> rw [h]
  · exact leads_pass (.modes _ p _ s true (by simp) ⟨rfl, rfl, rfl, rfl, .inl rfl⟩ nofun)
  · rw [withdraw_setCtx]
    refine leads_withdraw (.modes _ p _ _ true (by simp) ?_ nofun)
    rw [withdraw_ctx]
    exact ⟨rfl, rfl, rfl, rfl, .inl rfl⟩

theorem setNesting_leads {mode : NestMode} (hi : i ∈ [Instr.nest p, .openMode p]) :
    Leads i s (setNesting mode p s).state := by
  unfold setNesting
  split
  · next hs =>
    refine leads_quiet (.modes _ p _ s false ?_ ⟨rfl, rfl, rfl, rfl, .inr hs⟩ fun _ => modesNarrow_nesting hs)
    rcases List.mem_pair.1 hi with rfl | rfl <;> simp
  · exact leads_idle _ s

theorem quietEffect_leads : Leads (.quiet p) s (quietEffect p a b s).state := by
  refine leads_answer (leads_withdrawWhen (by simp) ⟨rfl, rfl, rfl, rfl, .inl rfl⟩ fun hn => modesNarrow_quiet ?_)
  cases h : s.offer p with
  | none => rfl
  | some o => simpa using hn o h

theorem loudEffect_leads : Leads (.loud p) s (loudEffect p a b s).state :=
  leads_answer_pass (.modes _ p _ s true (by simp) ⟨rfl, rfl, rfl, rfl, .inl rfl⟩ nofun)

theorem setClassEffect_leads : Leads i s (setClassEffect p a b s).state := by
  unfold setClassEffect
  split
  · refine leads_quiet (.settings _ _ s ?_)
    unfold setClassLimit
    split <;> rfl
  · exact leads_idle _ s

theorem setOfferEffect_leads : Leads i s (setOfferEffect p a b s).state := by
  unfold setOfferEffect
  split
  · exact leads_quiet (.settings _ _ s rfl)
  · exact leads_idle _ s

theorem setFenceEffect_leads (ho : operandsOk .setFence a b = true) : Leads i s (setFenceEffect p a b s).state := by
  unfold setFenceEffect
  split
  · simp only [operandsOk, Bool.and_eq_true, decide_eq_true_eq] at ho
    obtain ⟨⟨h1, h7⟩, -⟩ := ho
    exact leads_quiet (.setFence _ _ s h1 (Nat.le_of_lt_succ h7))
  · exact leads_idle _ s

theorem bindEffect_leads (hon : (s.ctx p).portState = .online) : Leads i s (bindEffect p a b s).state := by
  unfold bindEffect
  split
  · next hb =>
    refine leads_setRoute ⟨fun m hm => ?_, fun h hh => .inr ⟨hh, .inr hb⟩, rfl, fun _ h => h⟩
      (routeQuiet_of_same rfl rfl rfl)
    obtain rfl : p = m := Option.some.inj hm
    exact .inr hon
  · split <;> exact leads_idle _ s

theorem unbindEffect_leads : Leads i s (unbindEffect p a b s).state :=
  leads_configured fun _ => leads_setRoute ⟨nofun, nofun, rfl, fun _ h => h⟩ (routeQuiet_of_same rfl rfl rfl)

theorem heirEffect_leads : Leads i s (heirEffect p a b s).state := by
  refine leads_configured fun hperm => ?_
  have hbind : (s.route (sourceOf a)).binder = some p :=
    (permissionRefusal_none hperm).resolve_right fun h => by cases h.2
  split
  · exact leads_idle _ s
  · next hne =>
    refine leads_setRoute ⟨fun m hm => .inl hm, fun h hh => .inl ⟨p, hbind, ?_⟩, rfl, fun _ h => h⟩
      (routeQuiet_of_same rfl rfl rfl)
    rintro rfl
    exact hne hh

theorem routeEffect_leads : Leads i s (routeEffect p a b s).state := by
  refine leads_configured fun _ => ?_
  rw [answer_state]
  have hset : RouteSet s (sourceOf a) { s.route (sourceOf a) with targets := targetsOf b, policy := policyOf b } :=
    routeSet_of_same rfl rfl rfl rfl
  rcases withdrawNonTarget_cases (sourceOf a) (configureRoute (sourceOf a)
    { s.route (sourceOf a) with targets := targetsOf b, policy := policyOf b } 0 s) with h | h
  · exact h.symm ▸ leads_pass (.configure _ _ _ 0 s true hset (.inr rfl) nofun)
  · exact h.symm ▸ leads_configureRoute_withdrawSource hset (.inr rfl)

theorem urgeEffect_leads : Leads i s (urgeEffect p a b s).state := by
  refine leads_configured fun _ => ?_
  rw [answer_state, updRoute_eq]
  have hset : RouteSet s (sourceOf a) { s.route (sourceOf a) with urgency := urgencyOf b } :=
    routeSet_of_same rfl rfl rfl rfl
  rcases withdrawUnurgent_cases (sourceOf a) (s.setRoute (sourceOf a)
    { s.route (sourceOf a) with urgency := urgencyOf b }) with h | h <;> rw [h]
  · exact leads_setRoute_pass hset
  · rw [← configureRoute_keep]
    exact leads_configureRoute_withdrawSource hset (.inl rfl)

theorem trigEffect_leads (ho : operandsOk .trig a b = true) : Leads i s (trigEffect p a b s).state := by
  refine leads_configured fun _ => ?_
  split
  · exact leads_idle _ s
  · next hbusy =>
    split
    · exact leads_idle _ s
    · next hcombo =>
      have hline : isLineSource (sourceOf a) = true := by
        simp only [operandsOk, Bool.and_eq_true, decide_eq_true_eq] at ho
        have ha : a.toNat < 24 := ho.1
        exact decide_eq_true ((Nat.mod_le _ 32).trans_lt ha)
      have hidle : (s.tracker (sourceOf a)).state = .idle ∨ (s.tracker (sourceOf a)).state = .pending := by
        cases hst : (s.tracker (sourceOf a)).state <;> simp_all [trigBusy]
      have hen : (s.route (sourceOf a)).enabled = false := by
        cases he : (s.route (sourceOf a)).enabled <;> simp_all [trigBusy]
      have hauto : triggerOf b = .level → (s.route (sourceOf a)).autodone = false := fun hl => by
        simpa [hl] using hcombo
      rw [answer_state]
      split
      · exact leads_pass (.trig _ _ _ s true hline hidle hen hauto)
      · exact leads_quiet (.trig _ _ _ s false hline hidle hen hauto)

theorem autoEffect_leads : Leads i s (autoEffect p a b s).state := by
  refine leads_configured fun _ => ?_
  split
  · exact leads_idle _ s
  · split
    · exact leads_idle _ s
    · next hcombo =>
      refine leads_setRoute ⟨fun m hm => .inl hm, fun h hh => .inr ⟨hh, .inl rfl⟩, rfl, fun hl ha => ?_⟩
        (routeQuiet_of_same rfl rfl rfl)
      exact absurd ⟨by simpa using ha, hl⟩ hcombo

theorem limitEffect_leads : Leads i s (limitEffect p a b s).state :=
  leads_configured fun _ => leads_setRoute (routeSet_of_same rfl rfl rfl rfl) (routeQuiet_of_same rfl rfl rfl)

theorem enableEffect_leads : Leads i s (enableEffect p a b s).state :=
  leads_configured fun _ => leads_answer <| leads_setRoute_pass (routeSet_of_same rfl rfl rfl rfl)

theorem disableEffect_leads : Leads i s (disableEffect p a b s).state := by
  refine leads_configured fun _ => ?_
  have hset : RouteSet s (sourceOf a) { s.route (sourceOf a) with enabled := false } :=
    routeSet_of_same rfl rfl rfl rfl
  rw [answer_state]
  split
  · rw [updRoute_eq, ← configureRoute_keep]
    exact leads_configureRoute_withdrawSource hset (.inl rfl)
  · next hs => exact leads_setRoute hset ⟨rfl, rfl, nofun, fun h => absurd h hs⟩

theorem raiseEffect_leads : Leads i s (raiseEffect p a b s).state := by
  unfold raiseEffect
  dsimp only
  split
  · next hl =>
    rw [answer_state]
    split
    · next hs => exact leads_pass (.raiseIdle _ _ _ s hl hs)
    · next hs => exact leads_quiet (.raise _ _ _ s hl hs)
  · exact leads_idle _ s

theorem passEffect_leads : Leads i s (passEffect p a b s).state := by
  unfold passEffect
  cases h : s.offer p with
  | none => exact leads_idle _ s
  | some o => exact leads_answer_pass (.lapse _ p o s h)

theorem takeEffect_leads : Leads i s (takeEffect p a b s).state := by
  unfold takeEffect
  cases h : s.offer p with
  | none => exact leads_idle _ s
  | some o => exact leads_takeAnswer (.inl (ownOffer_iff.2 ⟨o, h, rfl⟩))

theorem pollEffect_leads : Leads i s (pollEffect p a b s).state := by
  unfold pollEffect
  cases h : pollChoice s p with
  | none => exact leads_idle _ s
  | some src => exact leads_takeAnswer (pollChoice_some h).1

theorem doneEffect_leads : Leads i s (doneEffect p a b s).state := by
  unfold doneEffect
  cases h : (s.ctx p).stack.getLast? with
  | none => exact leads_idle _ s
  | some e => exact leads_answer <| leads_completeEntry ⟨e, List.mem_of_getLast? h, rfl⟩

theorem doneSrcEffect_leads : Leads i s (doneSrcEffect p a b s).state := by
  unfold doneSrcEffect
  dsimp only
  split
  · next h => exact leads_answer <| leads_completeEntry (by simpa using h)
  · split
    · exact leads_quiet (.late _ p _ s)
    · exact leads_idle _ s

theorem noticeEffect_leads : Leads i s (noticeEffect p a b s).state := by
  unfold noticeEffect
  cases (s.port p).notices <;> exact leads_quiet (.notice _ p s)

end

/-- The effect of an accepted command is its event. -/
theorem effectOf_leads {c : Code} {p : Master} {a : BitVec 8} {b : BitVec 16} {s : State}
    (ho : operandsOk c a b = true) (hp : portStateRefusal c (s.ctx p).portState = none) :
    Leads (Instr.execution p c) s (effectOf c p a b s).state := by
  cases c
  case join => exact joinEffect_leads (a := a) (b := b) hp
  case leave => exact leaveEffect_leads (a := a) (b := b) (online_of_accepted hp (by decide))
  case fence => exact fenceEffect_leads (a := a) (b := b)
  case unfence => exact unfenceEffect_leads (p := p) (a := a) (b := b)
  case mask => exact maskEffect_leads (a := a) (b := b)
  case unmask => exact unmaskEffect_leads (a := a) (b := b)
  case thresh => exact threshEffect_leads (a := a) (b := b)
  case nest => exact setNesting_leads (List.mem_cons_self)
  case openMode => exact setNesting_leads (List.mem_cons_of_mem _ List.mem_cons_self)
  case quiet => exact quietEffect_leads (a := a) (b := b)
  case loud => exact loudEffect_leads (a := a) (b := b)
  case setClass => exact setClassEffect_leads (a := a) (b := b)
  case setOffer => exact setOfferEffect_leads (a := a) (b := b)
  case setFence => exact setFenceEffect_leads (a := a) (b := b) ho
  case bind => exact bindEffect_leads (a := a) (b := b) (online_of_accepted hp (by decide))
  case unbind => exact unbindEffect_leads (a := a) (b := b)
  case heir => exact heirEffect_leads (a := a) (b := b)
  case route => exact routeEffect_leads (a := a) (b := b)
  case urge => exact urgeEffect_leads (a := a) (b := b)
  case trig => exact trigEffect_leads (a := a) (b := b) ho
  case auto => exact autoEffect_leads (a := a) (b := b)
  case limit => exact limitEffect_leads (a := a) (b := b)
  case enable => exact enableEffect_leads (a := a) (b := b)
  case disable => exact disableEffect_leads (a := a) (b := b)
  case flush => exact leads_configured fun _ => leads_quiet (.flush _ _ s)
  case raise => exact raiseEffect_leads (a := a) (b := b)
  case pass => exact passEffect_leads (a := a) (b := b)
  case take => exact takeEffect_leads (a := a) (b := b)
  case poll => exact pollEffect_leads (a := a) (b := b)
  case done => exact doneEffect_leads (a := a) (b := b)
  case doneSrc => exact doneSrcEffect_leads (a := a) (b := b)
  case status | readStack | readSrc | readRoute | readQ | time => exact leads_idle _ s
  case notice => exact noticeEffect_leads (a := a) (b := b)

/-! Every row -/

/-- Row `i` takes `s` to `t`: by its event on the records, whatever it does to the inputs, the timebase and the window
before and after. -/
def Happens (i : Instr) (s t : State) : Prop :=
  ∃ s0 t0, SameRecords s s0 ∧ Leads i s0 t0 ∧ SameRecords t0 t

section
variable {i : Instr} {s t : State}

theorem happens_of_leads (h : Leads i s t) : Happens i s t := ⟨s, t, .refl s, h, .refl t⟩
theorem happens_of_same (h : SameRecords s t) : Happens i s t := ⟨s, s, .refl s, leads_idle i s, h⟩
theorem happens_after {s0 : State} (h : SameRecords s s0) (hl : Leads i s0 t) : Happens i s t := ⟨s0, t, h, hl, .refl t⟩
theorem happens_before {t0 : State} (hl : Leads i s t0) (h : SameRecords t0 t) : Happens i s t := ⟨s, t0, .refl s, hl, h⟩

theorem riseEvent_leads (n : Line) (s : State) : Leads (.rise n) s (riseEvent (lineSource n) s) := by
  have h := leads_event (Event.rise (.rise n) n s rfl)
  have he : riseEvent (lineSource n) s =
      if (s.tracker (lineSource n)).state = .idle then
        dispatchPass (s.setTracker (lineSource n)
          (risen (s.route (lineSource n)).trigger (s.tracker (lineSource n))))
      else s.setTracker (lineSource n) (risen (s.route (lineSource n)).trigger (s.tracker (lineSource n))) := rfl
  rw [he]
  by_cases hs : (s.tracker (lineSource n)).state = .idle <;> simpa [afterPass, hs] using h

theorem fallEvent_leads (n : Line) (s : State) : Leads (.fall n) s (fallEvent (lineSource n) s) := by
  unfold fallEvent
  split
  · next he => exact leads_quiet (.fallEdge _ n s he rfl)
  · next he =>
    split
    · next hs =>
      refine leads_withdrawSource (.fallOffered _ n _ (by simpa using he) ?_ rfl)
      cases hm : (s.tracker (lineSource n)).holder with
      | some m => exact .inl (by simp [withdrawSource_of_offered hs hm, waiting])
      | none =>
        refine .inr ?_
        have : withdrawSource (lineSource n) s = s := by simp [withdrawSource, hs, hm]
        rw [this]
        exact ⟨hs, hm⟩
    · next hs => exact leads_quiet (.fallLevel _ n s he hs rfl)

theorem acknowledge_leads (p : Master) (s : State) : Leads i s (acknowledge p s).2 := by
  cases h : s.offer p with
  | none =>
    rw [acknowledge_of_none h]
    exact leads_idle i s
  | some o =>
    have hk : (acknowledge p s).2 = dispatchPass (takeSource p o.source .ack s) := by rw [acknowledge_of_offer h]
    rw [hk]
    exact leads_pass (.take i p _ _ s (.inl (ownOffer_iff.2 ⟨o, h, rfl⟩)))

theorem busRead_happens {p : Master} {own : Word} {u : State} (h : Happens i s u) :
    Happens i s (busRead p own u s) := by
  rcases busRead_cases p own u s with hr | ⟨w, hr⟩ | hr <;> rw [hr]
  · obtain ⟨s0, t0, h0, hl, ht⟩ := h
    exact ⟨s0, t0, h0, hl, ht.trans (sameRecords_returnRead u p own)⟩
  · exact happens_of_same (sameRecords_returnRead s p w)
  · exact happens_of_same (.refl s)

theorem portResetEvent_leads (p : Master) (s : State) : Leads (.portReset p) s (portResetEvent p s) := by
  unfold portResetEvent
  split
  · exact leads_idle _ s
  · split
    · exact leads_pass (.portReset _ p s rfl)
    · next hp => exact leads_quiet (.portResetOffline _ p s rfl (by simpa [State.present] using hp))

theorem reclaimCharged_leads {m : Master} {src : Source} {s : State} (h : deadlineRaised s m src = true) :
    Leads i s (dispatchPass (reclaimCharged m src s)) := by
  have he : ∃ e ∈ (s.ctx m).stack, e.source = src := by
    simp only [deadlineRaised, List.any_eq_true, Bool.and_eq_true, beq_iff_eq] at h
    obtain ⟨e, hm, hs, -⟩ := h
    exact ⟨e, hm, hs⟩
  rw [reclaimCharged_eq]
  split
  · exact leads_pass (.reclaimFence i m src s he)
  · next ht =>
    split
    · next hl => exact leads_pass (.reclaimLeave i m src s he hl.2)
    · exact leads_pass (.reclaim i m src s he ht)

/-- The row of a command happens by its event. -/
theorem exec_execution_happens {p : Master} {c : Code} (h : exec (Instr.execution p c) s = .next t) :
    Happens (Instr.execution p c) s t := by
  rcases exec_execution_cases p c s with hr | ⟨w, rest, -, -, -, -, hr⟩
  · cases hr.symm.trans h
    exact happens_of_same (.refl s)
  · cases hr.symm.trans h
    refine happens_before (t0 := (answerCommand c (effectOf c) p w s).state) ?_ (sameRecords_reply p _ _)
    rcases answerCommand_cases c (effectOf c) p w s with ⟨-, ha⟩ | ⟨-, st, -, ha⟩ | ⟨ho, hp, ha⟩ <;> rw [ha]
    · exact leads_idle _ s
    · exact leads_idle _ s
    · exact effectOf_leads ho hp

/-- Every row happens by its event. -/
theorem exec_happens (i : Instr) {s t : State} (h : exec i s = .next t) : Happens i s t := by
  induction i using rowCases
  case command p c => exact exec_execution_happens h
  case undefinedCode p =>
    rcases exec_undefinedCode_cases p s with hr | ⟨w, rest, -, -, -, -, hr⟩ <;> cases hr.symm.trans h
    · exact happens_of_same (.refl s)
    · exact happens_of_same (sameRecords_reply p (answer .badCmd s) _)
  case rise n =>
    cases h
    split
    · exact happens_after (sameRecords_takeLineChange s n) (riseEvent_leads n _)
    · exact happens_of_same (.refl s)
  case fall n =>
    cases h
    split
    · exact happens_after (sameRecords_takeLineChange s n) (fallEvent_leads n _)
    · exact happens_of_same (.refl s)
  case hubReset =>
    cases h
    split
    · exact happens_of_leads (leads_quiet (.hubReset _ s rfl))
    · exact happens_of_same (.refl s)
  case hubResetRelease req =>
    cases h
    split
    · exact happens_after (sameRecords_ignoreIackAssertions s masters) (leads_quiet (.hubRelease _ req _ rfl))
    · exact happens_of_same (.refl s)
  case portReset p =>
    cases h
    split
    · exact happens_after (sameRecords_takePrstChange s p true) (portResetEvent_leads p _)
    · exact happens_of_same (.refl s)
  case portResetRelease p =>
    cases h
    refine happens_of_same ?_
    split
    · exact (sameRecords_takePrstChange s p false).trans (sameRecords_ignoreIackAssertion _ p)
    · exact .refl s
  case iackPulse p =>
    cases h
    split
    · split
      · exact happens_of_same (sameRecords_takeIackChange s p true 0)
      · split
        · exact happens_of_same (.refl s)
        · exact happens_before (acknowledge_leads p s) (sameRecords_takeIackChange _ p true _)
    · exact happens_of_same (.refl s)
  case iackRelease p =>
    cases h
    refine happens_of_same ?_
    split
    · exact sameRecords_takeIackChange s p false 0
    · exact .refl s
  case ackRead p =>
    cases h
    split
    · exact happens_of_same (.refl s)
    · exact busRead_happens (happens_of_leads (acknowledge_leads p s))
  case cmdWrite p w =>
    cases h
    refine happens_of_same ?_
    split
    · exact .refl s
    · split <;> exact sameRecords_setPort s p _ rfl rfl
  case rplRead p =>
    cases h
    split
    · exact busRead_happens (happens_of_same (.refl s))
    · exact busRead_happens (happens_of_same (sameRecords_setPort s p _ rfl rfl))
  case windowWriteIgnored p o w =>
    cases h
    exact happens_of_same (.refl s)
  case tick sm =>
    cases h
    split
    · exact happens_after ((sameRecords_timebase s 0 (s.tick + 1)).trans (sameRecords_samplePeriod _ sm))
        (leads_quiet (.tick _ _ _))
    · exact happens_of_same (.refl s)
  case trefPeriod sm =>
    cases h
    refine happens_of_same ?_
    split
    · exact .refl s
    · split
      · exact sameRecords_samplePeriod s sm
      · split
        · exact .refl s
        · exact (sameRecords_timebase s (s.period + 1) s.tick).trans (sameRecords_samplePeriod _ sm)
  case offerExpiry m =>
    cases h
    split
    · next o ho =>
      split
      · exact happens_of_leads (leads_pass (.lapse _ m o s ho))
      · exact happens_of_same (.refl s)
    · exact happens_of_same (.refl s)
  case deadlineExpiry m src =>
    cases h
    split
    · next hd =>
      simp only [Bool.and_eq_true] at hd
      exact happens_of_leads (reclaimCharged_leads hd.2)
    · exact happens_of_same (.refl s)

/-- A step is a row, or nothing changes. -/
theorem step_happens {s t : State} (h : step s = .next t) : ∃ i, Happens i s t := by
  unfold step at h
  cases hq : s.pending with
  | nil =>
    rw [hq] at h
    cases h
    exact ⟨.hubReset, happens_of_same (.refl s)⟩
  | cons i rest =>
    rw [hq] at h
    obtain ⟨s0, t0, h0, hl, ht⟩ := exec_happens i h
    exact ⟨i, s0, t0, (sameRecords_withPending s rest).trans h0, hl, ht⟩

/-- What withdrawals, events and passes keep, and records decide, every step keeps. -/
theorem step_keeps {P : State → Prop} (hsame : ∀ s t, SameRecords s t → P s → P t)
    (hwithdraw : ∀ s m, P s → P (withdraw m s)) (hsource : ∀ s src, P s → P (withdrawSource src s))
    (hevent : ∀ i s b u, Event i s b u → P s → P u) (hpass : ∀ s, P s → P (dispatchPass s)) {s t : State}
    (hs : P s) (h : step s = .next t) : P t := by
  obtain ⟨i, s0, t0, h0, ⟨b, s1, u, hw, he, rfl⟩, ht⟩ := step_happens h
  have hs0 : P s0 := hsame s s0 h0 hs
  have hs1 : P s1 := by
    rcases hw with rfl | ⟨-, ⟨m, rfl⟩ | ⟨src, rfl⟩⟩
    · exact hs0
    · exact hwithdraw s0 m hs0
    · exact hsource s0 src hs0
  have hu : P u := hevent i s1 b u he hs1
  refine hsame _ t ht ?_
  cases b
  · exact hu
  · exact hpass u hu

end

end Sys2Proof.Machine

/-! PROOFS. The records after each operation that an event is made of, where no earlier file says it; and R38, that no
other row reaches a master's masks, threshold and modes. -/

namespace Sys2Proof.Machine

open Sys2Proof.Safety

section
variable (s : State)

/-! Operations that write one kind of record -/

@[simp] theorem popNotice_tracker (p : Master) (i : Source) : (popNotice p s).tracker i = s.tracker i := rfl
@[simp] theorem popNotice_route (p : Master) (i : Source) : (popNotice p s).route i = s.route i := rfl
@[simp] theorem popNotice_ctx (p k : Master) : (popNotice p s).ctx k = s.ctx k := rfl
@[simp] theorem popNotice_offer (p k : Master) : (popNotice p s).offer k = s.offer k := rfl
@[simp] theorem popNotice_queue (p : Master) (g : SignalIndex) : (popNotice p s).queue g = s.queue g := rfl
@[simp] theorem popNotice_settings (p : Master) : (popNotice p s).settings = s.settings := rfl

theorem popNotice_port (p k : Master) :
    (popNotice p s).port k =
      if p = k then { s.port p with notices := (s.port p).notices.tail, noticeOverflow := false } else s.port k :=
  setPort_port ..

@[simp] theorem hubReleaseState_route (req : BitVec 24) (i : Source) : (hubReleaseState req s).route i = s.route i := by
  simp only [hubReleaseState, State.route]
@[simp] theorem hubReleaseState_ctx (req : BitVec 24) (k : Master) : (hubReleaseState req s).ctx k = s.ctx k := by
  simp only [hubReleaseState, State.ctx]
@[simp] theorem hubReleaseState_offer (req : BitVec 24) (k : Master) :
    (hubReleaseState req s).offer k = s.offer k := by simp only [hubReleaseState, State.offer]
@[simp] theorem hubReleaseState_queue (req : BitVec 24) (g : SignalIndex) :
    (hubReleaseState req s).queue g = s.queue g := by simp only [hubReleaseState, State.queue]
@[simp] theorem hubReleaseState_settings (req : BitVec 24) : (hubReleaseState req s).settings = s.settings := by
  simp only [hubReleaseState]

@[simp] theorem raiseExpiries_tracker (x : Tick) (i : Source) : (raiseExpiries x s).tracker i = s.tracker i := rfl
@[simp] theorem raiseExpiries_route (x : Tick) (i : Source) : (raiseExpiries x s).route i = s.route i := rfl
@[simp] theorem raiseExpiries_queue (x : Tick) (g : SignalIndex) : (raiseExpiries x s).queue g = s.queue g := rfl
@[simp] theorem raiseExpiries_port (x : Tick) (k : Master) : (raiseExpiries x s).port k = s.port k := rfl
@[simp] theorem raiseExpiries_settings (x : Tick) : (raiseExpiries x s).settings = s.settings := rfl

@[simp] theorem lapseOffer_route (m : Master) (o : Offer) (i : Source) : (lapseOffer m o s).route i = s.route i := rfl
@[simp] theorem lapseOffer_ctx (m : Master) (o : Offer) (k : Master) : (lapseOffer m o s).ctx k = s.ctx k := rfl
@[simp] theorem lapseOffer_queue (m : Master) (o : Offer) (g : SignalIndex) :
    (lapseOffer m o s).queue g = s.queue g := rfl
@[simp] theorem lapseOffer_port (m : Master) (o : Offer) (k : Master) : (lapseOffer m o s).port k = s.port k := rfl
@[simp] theorem lapseOffer_settings (m : Master) (o : Offer) : (lapseOffer m o s).settings = s.settings := rfl

theorem lapseOffer_tracker (m : Master) (o : Offer) (i : Source) :
    (lapseOffer m o s).tracker i = if o.source = i then (s.tracker i).toPending.addPass m else s.tracker i := by
  rw [lapseOffer, setOffer_tracker, updTracker_eq, setTracker_tracker]
  split
  · next h => rw [h]
  · rfl

theorem lapseOffer_offer (m : Master) (o : Offer) (k : Master) :
    (lapseOffer m o s).offer k = if m = k then none else s.offer k := by
  rw [lapseOffer, setOffer_offer]
  rfl

@[simp] theorem setPortState_tracker (m : Master) (ps : PortState) (i : Source) :
    (setPortState m ps s).tracker i = s.tracker i := rfl
@[simp] theorem setPortState_route (m : Master) (ps : PortState) (i : Source) :
    (setPortState m ps s).route i = s.route i := rfl
@[simp] theorem setPortState_offer (m : Master) (ps : PortState) (k : Master) :
    (setPortState m ps s).offer k = s.offer k := rfl
@[simp] theorem setPortState_queue (m : Master) (ps : PortState) (g : SignalIndex) :
    (setPortState m ps s).queue g = s.queue g := rfl
@[simp] theorem setPortState_port (m : Master) (ps : PortState) (k : Master) :
    (setPortState m ps s).port k = s.port k := rfl
@[simp] theorem setPortState_settings (m : Master) (ps : PortState) : (setPortState m ps s).settings = s.settings := rfl

@[simp] theorem readmit_tracker (m : Master) (i : Source) : (readmit m s).tracker i = s.tracker i := rfl
@[simp] theorem readmit_route (m : Master) (i : Source) : (readmit m s).route i = s.route i := rfl
@[simp] theorem readmit_offer (m k : Master) : (readmit m s).offer k = s.offer k := rfl
@[simp] theorem readmit_queue (m : Master) (g : SignalIndex) : (readmit m s).queue g = s.queue g := rfl
@[simp] theorem readmit_settings (m : Master) : (readmit m s).settings = s.settings := rfl

theorem readmit_ctx (m k : Master) :
    (readmit m s).ctx k = if m = k then { s.ctx m with portState := .offline, reclaimed := [] } else s.ctx k :=
  setCtx_ctx ..

theorem readmit_port (m k : Master) :
    (readmit m s).port k = if m = k then { s.port m with notices := [], noticeOverflow := false } else s.port k :=
  setPort_port ..

@[simp] theorem clearMisses_tracker (i : Source) : (clearMisses s).tracker i = s.tracker i := rfl
@[simp] theorem clearMisses_route (i : Source) : (clearMisses s).route i = s.route i := rfl
@[simp] theorem clearMisses_offer (k : Master) : (clearMisses s).offer k = s.offer k := rfl
@[simp] theorem clearMisses_queue (g : SignalIndex) : (clearMisses s).queue g = s.queue g := rfl
@[simp] theorem clearMisses_port (k : Master) : (clearMisses s).port k = s.port k := rfl
@[simp] theorem clearMisses_settings : (clearMisses s).settings = s.settings := rfl

@[simp] theorem configureRoute_ctx (src : Source) (r : Route) (x : MasterSet) (k : Master) :
    (configureRoute src r x s).ctx k = s.ctx k := rfl
@[simp] theorem configureRoute_offer (src : Source) (r : Route) (x : MasterSet) (k : Master) :
    (configureRoute src r x s).offer k = s.offer k := rfl
@[simp] theorem configureRoute_queue (src : Source) (r : Route) (x : MasterSet) (g : SignalIndex) :
    (configureRoute src r x s).queue g = s.queue g := rfl
@[simp] theorem configureRoute_port (src : Source) (r : Route) (x : MasterSet) (k : Master) :
    (configureRoute src r x s).port k = s.port k := rfl
@[simp] theorem configureRoute_settings (src : Source) (r : Route) (x : MasterSet) :
    (configureRoute src r x s).settings = s.settings := rfl

theorem configureRoute_route (src : Source) (r : Route) (x : MasterSet) (i : Source) :
    (configureRoute src r x s).route i = if src = i then r else s.route i := setRoute_route ..

theorem configureRoute_tracker (src : Source) (r : Route) (x : MasterSet) (i : Source) :
    (configureRoute src r x s).tracker i = if src = i then { s.tracker i with passSet := x } else s.tracker i := by
  rw [configureRoute, setTracker_tracker]
  split
  · next h => rw [h]
  · rfl

@[simp] theorem retriggered_ctx (src : Source) (x : Trigger) (k : Master) : (retriggered src x s).ctx k = s.ctx k := rfl
@[simp] theorem retriggered_offer (src : Source) (x : Trigger) (k : Master) :
    (retriggered src x s).offer k = s.offer k := rfl
@[simp] theorem retriggered_queue (src : Source) (x : Trigger) (g : SignalIndex) :
    (retriggered src x s).queue g = s.queue g := rfl
@[simp] theorem retriggered_port (src : Source) (x : Trigger) (k : Master) :
    (retriggered src x s).port k = s.port k := rfl
@[simp] theorem retriggered_settings (src : Source) (x : Trigger) : (retriggered src x s).settings = s.settings := rfl

theorem retriggered_route (src : Source) (x : Trigger) (i : Source) :
    (retriggered src x s).route i = if src = i then { s.route i with trigger := x } else s.route i := by
  rw [retriggered, setTracker_route, setRoute_route]
  split
  · next h => rw [h]
  · rfl

theorem retriggered_tracker (src : Source) (x : Trigger) (i : Source) :
    (retriggered src x s).tracker i = if src = i then (s.tracker i).retrigger x else s.tracker i := by
  rw [retriggered, setTracker_tracker]
  split
  · next h => rw [h]
  · rfl

@[simp] theorem flushQueue_ctx (g : SignalIndex) (k : Master) : (flushQueue g s).ctx k = s.ctx k := by
  unfold flushQueue
  split <;> rfl
@[simp] theorem flushQueue_route (g : SignalIndex) (i : Source) : (flushQueue g s).route i = s.route i := by
  unfold flushQueue
  split <;> rfl
@[simp] theorem flushQueue_offer (g : SignalIndex) (k : Master) : (flushQueue g s).offer k = s.offer k := by
  unfold flushQueue
  split <;> rfl
@[simp] theorem flushQueue_port (g : SignalIndex) (k : Master) : (flushQueue g s).port k = s.port k := by
  unfold flushQueue
  split <;> rfl
@[simp] theorem flushQueue_settings (g : SignalIndex) : (flushQueue g s).settings = s.settings := by
  unfold flushQueue
  split <;> rfl

/-! Operations of several kinds -/

@[simp] theorem endLeaving_settings (m : Master) : (endLeaving m s).settings = s.settings :=
  settings_of_timebase (endLeaving_timebase s m)
@[simp] theorem fenceMaster_settings (m : Master) : (fenceMaster m s).settings = s.settings :=
  settings_of_timebase (fenceMaster_timebase s m)
@[simp] theorem portResetPresent_settings (m : Master) : (portResetPresent m s).settings = s.settings :=
  settings_of_timebase (portResetPresent_timebase s m)
@[simp] theorem completedRecords_settings (m : Master) (src : Source) : (completedRecords m src s).settings = s.settings :=
  settings_of_timebase (completedRecords_timebase m src s)
@[simp] theorem takeSource_settings (m : Master) (src : Source) (via : Via) :
    (takeSource m src via s).settings = s.settings := settings_of_timebase (takeSource_timebase s m src via)
@[simp] theorem notifyOthers_settings (m : Master) (n : Notice) : (notifyOthers m n s).settings = s.settings :=
  settings_of_timebase (notifyOthers_timebase s m n)
@[simp] theorem resetPortRecords_settings (m : Master) : (resetPortRecords m s).settings = s.settings := rfl

theorem endLeaving_route_eq (m : Master) (i : Source) :
    (endLeaving m s).route i = passedRoute m (canInherit s m) (s.route i) := by
  rw [endLeaving_route, show (setPortState m .offline s).online = canInherit s m from
    funext (online_setPortState (by decide))]

/-! A take (R93 to R95) -/

variable (p : Master) (src : Source) (via : Via)

theorem takeSource_ctx (k : Master) :
    (takeSource p src via s).ctx k =
      if p = k then
        { s.ctx p with
          stack := (s.ctx p).stack ++ if (s.route src).autodone then [] else [newEntry s src via]
          reclaimed := (s.ctx p).reclaimed.filter (· != src) }
      else s.ctx k := by
  unfold takeSource
  by_cases h : p = k <;> cases ha : (s.route src).autodone <;> simp [h, noteTake_ctx]

theorem takeSource_route (i : Source) :
    (takeSource p src via s).route i = if src = i then { s.route src with last := p } else s.route i := by
  unfold takeSource
  split <;> simp [noteTake_route]

theorem takeSource_offer (k : Master) :
    (takeSource p src via s).offer k =
      if p = k ∧ (s.offer p).map (·.source) = some src then none else s.offer k := by
  unfold takeSource
  split <;> simp [noteTake_offer]

theorem takeSource_tracker (i : Source) :
    (takeSource p src via s).tracker i =
      if src = i then
        if (s.route src).autodone then
          match signalIndex src with
          | some g => { s.tracker src with merged := false }.completeSignal (s.queue g).tail
          | none => { s.tracker src with merged := false }.completeLine (s.route src).trigger
        else { s.tracker src with state := .inService, holder := some p, merged := false }
      else s.tracker i := by
  unfold takeSource
  by_cases h : src = i
  · subst h
    cases ha : (s.route src).autodone
    · simp [noteTake_tracker]
    · simp only [if_true, restCompleted_tracker_self, noteTake_tracker, noteTake_route]
      cases signalIndex src with
      | none => rfl
      | some g =>
        have hq : (noteTake p src s).queue g = s.queue g := by
          unfold noteTake
          dsimp only
          split
          · split <;> rfl
          · rfl
        simp [hq]
  · cases ha : (s.route src).autodone <;> simp [noteTake_tracker, restCompleted_tracker_ne, h]

theorem takeSource_queue (g : SignalIndex) :
    (takeSource p src via s).queue g =
      if (s.route src).autodone = true ∧ signalIndex src = some g then (s.queue g).tail else s.queue g := by
  have hq : (noteTake p src s).queue g = s.queue g := by
    unfold noteTake
    dsimp only
    split
    · split <;> rfl
    · rfl
  unfold takeSource
  cases ha : (s.route src).autodone <;> simp [restCompleted_queue, hq]

end

/-! Masks, threshold and modes (R38) -/

/-- The fields that only a master's own MASK, UNMASK, THRESH, NEST, OPEN, QUIET and LOUD and the resets write. -/
def Context.modes (c : Context) : SourceSet × Fin 9 × NestMode × LineMode :=
  (c.maskSet, c.threshold, c.nesting, c.lineMode)

/-- The rows that may write the modes of `m` (R38). -/
def modeRows (m : Master) : List Instr :=
  [.mask m, .unmask m, .thresh m, .nest m, .openMode m, .quiet m, .loud m, .portReset m, .hubReset]

theorem modes_ite {s : State} {p m : Master} {c : Context} (h : c.modes = (s.ctx p).modes) :
    (if p = m then c else s.ctx m).modes = (s.ctx m).modes := by
  split
  · next hp => exact hp ▸ h
  · rfl

section
variable (s : State) (k m : Master) (src : Source)

@[simp] theorem chargedRecords_modes : ((chargedRecords k src s).ctx m).modes = (s.ctx m).modes := by
  rw [chargedRecords_ctx]
  exact modes_ite rfl
@[simp] theorem completedRecords_modes : ((completedRecords k src s).ctx m).modes = (s.ctx m).modes := by
  rw [completedRecords_ctx]
  exact modes_ite rfl
@[simp] theorem fenceMaster_modes : ((fenceMaster k s).ctx m).modes = (s.ctx m).modes := by
  rw [fenceMaster_ctx]
  exact modes_ite rfl
@[simp] theorem endLeaving_modes : ((endLeaving k s).ctx m).modes = (s.ctx m).modes := by
  rw [endLeaving_ctx]
  exact modes_ite rfl

end

/-- No other event reaches the modes of `m`. -/
theorem event_modes {i : Instr} {s u : State} {b : Bool} (h : Event i s b u) {m : Master} (hi : i ∉ modeRows m) :
    (u.ctx m).modes = (s.ctx m).modes := by
  cases h with
  | idle | notice | rise | fallEdge | fallLevel | fallOffered | settings | raise | raiseIdle => rfl
  | hubRelease | lapse | flush | configure | trig => simp
  | hubReset _ hrow => exact absurd (by simp [modeRows, hrow]) hi
  | portReset p _ hrow =>
    have hne : p ≠ m := fun h => hi (by simp [modeRows, hrow, h])
    rw [portResetPresent_ctx, if_neg hne]
  | portResetOffline p _ hrow =>
    have hne : p ≠ m := fun h => hi (by simp [modeRows, hrow, h])
    rw [resetPortRecords_ctx, if_neg hne]
  | modes p d _ _ hrow =>
    have hne : p ≠ m := fun h => hi (List.mem_append_left [.portReset m, .hubReset] (h ▸ hrow))
    rw [setCtx_ctx, if_neg hne]
  | tick => rw [raiseExpiries_ctx]; rfl
  | setFence => rw [clearMisses_ctx]; rfl
  | reclaim | reclaimFence | reclaimLeave | leaveEmpty | fence | complete | completeLeave => simp
  | take => rw [takeSource_ctx]; exact modes_ite rfl
  | join => rw [notifyOthers_ctx, setPortState_ctx]; exact modes_ite rfl
  | leaveBusy => rw [setPortState_ctx]; exact modes_ite rfl
  | unfence => rw [readmit_ctx]; exact modes_ite rfl
  | late => rw [setCtx_ctx]; exact modes_ite rfl

/-- Settles O60. -/
theorem onlyItsOwnCommandsSetAMaster : Obligations.OnlyItsOwnCommandsSetAMaster := by
  unfold Obligations.OnlyItsOwnCommandsSetAMaster
  intro i m s t h hi
  obtain ⟨s0, t0, h0, ⟨b, s1, u, hw, he, rfl⟩, ht⟩ := exec_happens i h
  have hs1 : s1.ctx m = s0.ctx m := by
    rcases hw with rfl | ⟨-, ⟨k, rfl⟩ | ⟨src, rfl⟩⟩ <;> simp
  have hu : (afterPass b u).ctx m = u.ctx m := by cases b <;> simp [afterPass]
  have hmodes : (t.ctx m).modes = (s.ctx m).modes := by
    rw [ht.ctx, hu, event_modes he hi, hs1, h0.ctx]
  simpa [Context.modes] using hmodes

end Sys2Proof.Machine

/-! PROOFS. Binders and heirs (R19 to R23). -/

namespace Sys2Proof.Machine

open Sys2Proof.Safety

/-- A field of a context that an update of one context leaves as it was. -/
theorem ctx_ite {α : Type} (f : Context → α) {s : State} {p m : Master} {c : Context} (h : f c = f (s.ctx p)) :
    f (if p = m then c else s.ctx m) = f (s.ctx m) := by
  split
  · next hp => exact hp ▸ h
  · rfl

/-- An ONLINE or LEAVING master. -/
def Member (s : State) (m : Master) : Prop := (s.ctx m).portState = .online ∨ (s.ctx m).portState = .leaving

section
variable {s u : State}

theorem member_of_portState {m : Master} (h : (u.ctx m).portState = (s.ctx m).portState) (hm : Member s m) :
    Member u m := by rwa [Member, h]

/-- Where binders and heirs stand and no member goes, the invariant stands. -/
theorem bindersPresent_mono (hs : BindersPresent s) (hb : ∀ i, (u.route i).binder = (s.route i).binder)
    (hh : ∀ i, (u.route i).heir = (s.route i).heir) (hm : ∀ m, Member s m → Member u m) : BindersPresent u := by
  intro i
  rw [hb i, hh i]
  exact ⟨fun m h => hm m ((hs i).1 m h), (hs i).2⟩

/-- The same where no port state changes. -/
theorem bindersPresent_congr (hs : BindersPresent s) (hb : ∀ i, (u.route i).binder = (s.route i).binder)
    (hh : ∀ i, (u.route i).heir = (s.route i).heir) (hm : ∀ m, (u.ctx m).portState = (s.ctx m).portState) :
    BindersPresent u := bindersPresent_mono hs hb hh fun m => member_of_portState (hm m)

/-- Binding passage leaves no route to the master that goes: its heir takes over when it is ONLINE, else the route is
unbound (R23). -/
theorem bindersPresent_passed {m : Master} (hs : BindersPresent s)
    (hr : ∀ i, u.route i = passedRoute m (canInherit s m) (s.route i)) (hc : ∀ k, k ≠ m → u.ctx k = s.ctx k) :
    BindersPresent u := by
  intro i
  rw [hr]
  obtain ⟨hb, hh⟩ := hs i
  unfold passedRoute
  split
  · cases hheir : (s.route i).heir with
    | none => exact ⟨nofun, by simp⟩
    | some h =>
      dsimp only
      split
      · next hcan =>
        simp only [canInherit, Bool.and_eq_true, bne_iff_ne] at hcan
        refine ⟨fun k hk => ?_, nofun⟩
        obtain rfl : h = k := Option.some.inj hk
        rw [hc h hcan.1]
        exact .inl (online_iff.1 hcan.2)
      · exact ⟨nofun, nofun⟩
  · next hne =>
    refine ⟨fun k hk => ?_, hh⟩
    rw [hc k (by rintro rfl; exact hne hk)]
    exact hb k hk

theorem bindersPresent_endLeaving {m : Master} (hs : BindersPresent s) : BindersPresent (endLeaving m s) :=
  bindersPresent_passed hs (endLeaving_route_eq s m) fun k hk => by rw [endLeaving_ctx, if_neg (Ne.symm hk)]

theorem bindersPresent_fenceMaster {m : Master} (hs : BindersPresent s) : BindersPresent (fenceMaster m s) :=
  bindersPresent_passed hs (fenceMaster_route m s) fun k hk => by rw [fenceMaster_ctx, if_neg (Ne.symm hk)]

theorem bindersPresent_portResetPresent {m : Master} (hs : BindersPresent s) :
    BindersPresent (portResetPresent m s) :=
  bindersPresent_passed hs (portResetPresent_route m s) fun k hk => by
    rw [portResetPresent_ctx, if_neg (Ne.symm hk)]

theorem bindersPresent_chargedRecords {m : Master} {src : Source} (hs : BindersPresent s) :
    BindersPresent (chargedRecords m src s) :=
  bindersPresent_congr hs (by simp) (by simp) fun k => by
    rw [chargedRecords_ctx]
    exact ctx_ite Context.portState rfl

theorem bindersPresent_completedRecords {m : Master} {src : Source} (hs : BindersPresent s) :
    BindersPresent (completedRecords m src s) :=
  bindersPresent_congr hs (by simp) (by simp) fun k => by
    rw [completedRecords_ctx]
    exact ctx_ite Context.portState rfl

theorem bindersPresent_configureRoute {src : Source} {r : Route} {x : MasterSet} (hs : BindersPresent s)
    (hr : RouteSet s src r) : BindersPresent (configureRoute src r x s) := by
  intro i
  rw [configureRoute_route]
  by_cases h : src = i
  · subst h
    obtain ⟨hb, hh⟩ := hs src
    rw [if_pos rfl]
    refine ⟨fun m hm => ?_, fun k hk => ?_⟩
    · rcases hr.binder m hm with h | h
      · exact hb m h
      · exact .inl h
    · rcases hr.heir k hk with h | ⟨hheir, hbind | hbind⟩
      · exact h
      · rw [hbind]
        exact hh k hheir
      · obtain ⟨m, hm, -⟩ := hh k hheir
        simp [hbind] at hm
  · rw [if_neg h]
    exact hs i

/-- Every event keeps binders present. -/
theorem event_bindersPresent {i : Instr} {b : Bool} (h : Event i s b u) (hs : BindersPresent s) :
    BindersPresent u := by
  cases h with
  | idle => exact hs
  | notice | rise | fallEdge | fallLevel | fallOffered | lapse | settings | raise | raiseIdle => exact hs
  | hubRelease | flush => exact bindersPresent_congr hs (by simp) (by simp) (by simp)
  | hubReset =>
    intro i
    rw [hubResetState_route]
    exact ⟨nofun, nofun⟩
  | portReset => exact bindersPresent_portResetPresent hs
  | portResetOffline =>
    refine bindersPresent_congr hs (by simp) (by simp) fun k => ?_
    rw [resetPortRecords_ctx]
    exact ctx_ite Context.portState rfl
  | tick => exact bindersPresent_congr hs (by simp) (by simp) fun k => by rw [raiseExpiries_ctx]
  | setFence => exact bindersPresent_congr hs (by simp) (by simp) fun k => by rw [clearMisses_ctx]; rfl
  | reclaim => exact bindersPresent_chargedRecords hs
  | reclaimFence => exact bindersPresent_fenceMaster (bindersPresent_chargedRecords hs)
  | reclaimLeave => exact bindersPresent_endLeaving (bindersPresent_chargedRecords hs)
  | take p src via =>
    refine bindersPresent_congr hs (fun i => ?_) (fun i => ?_) fun k => ?_
    · rw [takeSource_route]
      split
      · next hi => rw [hi]
      · rfl
    · rw [takeSource_route]
      split
      · next hi => rw [hi]
      · rfl
    · rw [takeSource_ctx]
      exact ctx_ite Context.portState rfl
  | join p _ hi hp =>
    refine bindersPresent_mono hs (by simp) (by simp) fun k hk => ?_
    rw [Member, notifyOthers_ctx, setPortState_ctx]
    split
    · exact .inl rfl
    · exact hk
  | leaveEmpty => exact bindersPresent_endLeaving hs
  | leaveBusy p =>
    refine bindersPresent_mono hs (by simp) (by simp) fun k hk => ?_
    rw [Member, setPortState_ctx]
    split
    · exact .inr rfl
    · exact hk
  | fence => exact bindersPresent_fenceMaster hs
  | unfence m _ hp =>
    refine bindersPresent_mono hs (by simp) (by simp) fun k hk => ?_
    have hne : m ≠ k := by
      rintro rfl
      simp [Member, hp] at hk
    rwa [Member, readmit_ctx, if_neg hne]
  | modes p d _ _ _ hd =>
    refine bindersPresent_congr hs (by simp) (by simp) fun k => ?_
    rw [setCtx_ctx]
    exact ctx_ite Context.portState hd.portState
  | configure src r x _ _ hr => exact bindersPresent_configureRoute hs hr
  | trig src x =>
    refine bindersPresent_congr hs (fun i => ?_) (fun i => ?_) (by simp)
    · rw [retriggered_route]
      split <;> rfl
    · rw [retriggered_route]
      split <;> rfl
  | complete => exact bindersPresent_completedRecords hs
  | completeLeave => exact bindersPresent_endLeaving (bindersPresent_completedRecords hs)
  | late =>
    refine bindersPresent_congr hs (by simp) (by simp) fun k => ?_
    rw [setCtx_ctx]
    exact ctx_ite Context.portState rfl

theorem bindersPresent_same (h : SameRecords s u) (hs : BindersPresent s) : BindersPresent u :=
  bindersPresent_congr hs (fun i => by rw [h.route]) (fun i => by rw [h.route]) fun m => by rw [h.ctx]

end

/-- Settles O58. -/
theorem everyStepKeepsBindersPresent : Obligations.EveryStepKeepsBindersPresent := by
  unfold Obligations.EveryStepKeepsBindersPresent
  intro s t hs h
  exact step_keeps (fun _ _ => bindersPresent_same)
    (fun s m hs => bindersPresent_congr hs (by simp) (by simp) (by simp))
    (fun s src hs => bindersPresent_congr hs (by simp) (by simp) (by simp)) (fun _ _ _ _ => event_bindersPresent)
    (fun s hs => bindersPresent_congr hs (by simp) (by simp) (by simp)) hs h

end Sys2Proof.Machine

/-! PROOFS. What each row does to the inputs and the windows, and the sizes of the queues (R131, R147, R152, R160). -/

namespace Sys2Proof.Machine

open Sys2Proof.Safety

/-! The rows by their effect on inputs and windows -/

/-- Port `q` with `x` at the end of its command queue, or with the overrun flag set when it is full (R147). -/
def Written (q r : Port) : Prop :=
  (q.commands.length < 4 ∧ ∃ w, r = { q with commands := q.commands ++ [w] }) ∨ r = { q with overrun := true }

/-- What row `i` does to the inputs, HRST as taken and the ports, their notices apart. -/
inductive Wired : Instr → State → State → Prop
  /-- Nothing: events, and rows that wait. -/
  | keep (i : Instr) (s t : State) (h : t.wires = s.wires) : Wired i s t
  /-- RISE and FALL take the change of a line (R3). -/
  | line (i : Instr) (n : Line) (s t : State) (hi : movesLines i = true)
      (h : t.wires = (takeLineChange n s).wires) : Wired i s t
  /-- An execution takes the head word and appends its reply (R149, R152). -/
  | reply (i : Instr) (p : Master) (words : List Word) (s t : State) (hc : (s.port p).commands ≠ [])
      (hl : SignalQueuesBounded s → (s.port p).replies.length + words.length ≤ 16)
      (h : t.wires = (s.setPort p
        { s.port p with
          commands := (s.port p).commands.tail, replies := (s.port p).replies ++ words, overrun := false }).wires) :
      Wired i s t
  /-- CMD_WRITE at an operative window (R147). -/
  | write (i : Instr) (p : Master) (q : Port) (s t : State) (hh : ¬ ResetHeld s p) (hq : Written (s.port p) q)
      (h : t.wires = (s.setPort p q).wires) : Wired i s t
  /-- A read of the window (R85, R152, R156). -/
  | read (i : Instr) (p : Master) (w : Word) (r : List Word) (s t : State)
      (hr : r = (s.port p).replies ∨ r = (s.port p).replies.tail)
      (h : t.wires = (s.setPort p { s.port p with replies := r, readData := w }).wires) : Wired i s t
  /-- IACK_PULSE and IACK_RELEASE take a change of IACK (R86). -/
  | iack (i : Instr) (p : Master) (held : Bool) (w : Word) (s t : State)
      (hw : (s.iackInput p).level = held ∧ (s.iackInput p).change = true) (hz : ResetHeld s p → w = 0)
      (h : t.wires = (takeIackChange p held w s).wires) : Wired i s t
  /-- PORT_RESET while HRST is held (R159). -/
  | prstHeld (i : Instr) (p : Master) (s t : State) (hw : PortResetWaits s p)
      (hh : s.hubHeld = true ∧ s.inputs.hrst.change = false) (h : t.wires = (takePrstChange p true s).wires) :
      Wired i s t
  /-- PORT_RESET (R49, R158). -/
  | prstReset (i : Instr) (p : Master) (s t : State) (hw : PortResetWaits s p) (hp : (t.ctx p).portState = .offline)
      (h : t.wires = (resetPortRecords p (takePrstChange p true s)).wires) : Wired i s t
  /-- PORT_RESET_RELEASE (R50, R86). -/
  | prstRelease (i : Instr) (p : Master) (s t : State)
      (hw : (s.prstInput p).level = false ∧ (s.prstInput p).change = true)
      (h : t.wires = (ignoreIackAssertion (takePrstChange p false s) p).wires) : Wired i s t
  /-- HUB_RESET (R159). -/
  | hubReset (i : Instr) (s : State) (hi : movesLines i = true)
      (hw : s.inputs.hrst.level = true ∧ s.inputs.hrst.change = true) : Wired i s (hubResetState s)
  /-- HUB_RESET_RELEASE (R4, R86). -/
  | hubRelease (i : Instr) (req : BitVec 24) (s t : State) (hi : movesLines i = true)
      (hw : s.inputs.hrst.level = false ∧ s.inputs.hrst.change = true) (h : t.wires = (hubRelease req s).wires) :
      Wired i s t
  /-- TREF_PERIOD and TICK (R109). -/
  | sample (i : Instr) (sm : Samples) (s t : State) (hn : NoChangeWaits s) (h : t.wires = (samplePeriod sm s).wires) :
      Wired i s t

section
variable {s u : State}

theorem waiting_iff {b : Bool} {i : Sampler} : i.waiting b = true ↔ i.level = b ∧ i.change = true := by
  simp [Sampler.waiting, and_comm]

theorem hubHeld_of_wires (h : u.wires = s.wires) : u.hubHeld = s.hubHeld := congrArg (fun w => w.1) h
theorem inputs_of_wires (h : u.wires = s.wires) : u.inputs = s.inputs := congrArg (fun w => w.2.1) h

/-- An update of one port that reads only what wires show. -/
theorem setPort_wires_congr {p : Master} {q r : Port} (h : u.wires = s.wires) (hq : q.bare = r.bare) :
    (u.setPort p q).wires = (s.setPort p r).wires := by
  have hh := hubHeld_of_wires h
  have hi := inputs_of_wires h
  have hp := pending_of_wires h
  refine wires_eq hh hi hp fun k => ?_
  rw [setPort_port, setPort_port]
  split
  · exact hq
  · exact bare_of_wires h k

theorem takeIackChange_wires_congr {p : Master} {held : Bool} {w : Word} (h : u.wires = s.wires) :
    (takeIackChange p held w u).wires = (takeIackChange p held w s).wires := by
  have hi := inputs_of_wires h
  have hq := congrArg (fun q : Port => { q with iackHeld := held, ackWord := w }) (bare_of_wires h p)
  have hinputs : (u.setInputs { u.inputs with iack := u.inputs.iack.set p.val (u.iackInput p).taken p.isLt }).wires =
      (s.setInputs { s.inputs with iack := s.inputs.iack.set p.val (s.iackInput p).taken p.isLt }).wires := by
    have hh := hubHeld_of_wires h
    have hp := pending_of_wires h
    have hb := bare_of_wires h
    refine wires_eq hh ?_ hp hb
    simp only [State.iackInput, hi, setInputs_inputs]
  exact setPort_wires_congr hinputs hq

theorem resetPortRecords_wires_congr {m : Master} (h : u.wires = s.wires) :
    (resetPortRecords m u).wires = (resetPortRecords m s).wires := by
  have hh := hubHeld_of_wires h
  have hi := inputs_of_wires h
  have hp := pending_of_wires h
  refine wires_eq hh hi hp fun k => ?_
  rw [resetPortRecords_port, resetPortRecords_port]
  split
  · exact congrArg (fun q : Port => { q with
      commands := [], replies := [], overrun := false, ackWord := 0 }) (bare_of_wires h m)
  · exact bare_of_wires h k

theorem portResetPresent_wires (m : Master) (s : State) :
    (portResetPresent m s).wires = (resetPortRecords m s).wires := by
  rw [portResetPresent_eq, notifyOthers_wires]
  refine resetPortRecords_wires_congr ?_
  rw [bindingPassage_wires, departedRecords, setPortState_wires, releaseAll,
    foldl_wires (releaseEntry m) (fun s e => restInterrupted_wires _ _), withdraw_wires]

theorem reply_wires {p : Master} {code : BitVec 8} {ans : Answer} (h : ans.state.wires = s.wires) :
    ∃ header, (ans.reply p code).wires = (s.setPort p
      { s.port p with
        commands := (s.port p).commands.tail, replies := (s.port p).replies ++ header :: ans.data
        overrun := false }).wires := by
  refine ⟨headerWord (BitVec.ofNat 8 code.toNat) ans.status ans.data.length (ans.state.port p).overrun
    ans.noticeOverflow, setPort_wires_congr h ?_⟩
  have hb := bare_of_wires h p
  simp only [repliedPort, replies_of_bare hb, commands_of_bare hb]
  exact congrArg (fun q : Port => { q with
    commands := (s.port p).commands.tail
    replies := (s.port p).replies ++ headerWord (BitVec.ofNat 8 code.toNat) ans.status ans.data.length
      (ans.state.port p).overrun ans.noticeOverflow :: ans.data
    overrun := false }) hb

/-- A bus read: its own effect on the ports, a word read, or a wait. -/
theorem busRead_wired {i : Instr} {p : Master} {own : Word} {r : List Word}
    (hr : r = (s.port p).replies ∨ r = (s.port p).replies.tail)
    (h : u.wires = (s.setPort p { s.port p with replies := r }).wires) : Wired i s (busRead p own u s) := by
  rcases busRead_cases p own u s with hb | ⟨w, hb⟩ | hb <;> rw [hb]
  · refine .read i p own r s _ hr ?_
    have hq : ({ u.port p with readData := own } : Port).bare =
        ({ s.port p with replies := r, readData := own } : Port).bare := by
      have hb := bare_of_wires h p
      rw [setPort_port_self] at hb
      exact congrArg (fun q : Port => { q with readData := own }) hb
    rw [returnRead, updPort_eq, setPort_wires_congr h hq, setPort_setPort]
  · exact .read i p w _ s _ (.inl rfl) rfl
  · exact .keep i s s rfl

theorem riseEvent_wires (src : Source) (s : State) : (riseEvent src s).wires = s.wires := by
  unfold riseEvent
  dsimp only
  split <;> simp

theorem fallEvent_wires (src : Source) (s : State) : (fallEvent src s).wires = s.wires := by
  unfold fallEvent
  split
  · rfl
  · split
    · simp
    · rfl

theorem takeIackChange_wired {i : Instr} {p : Master} {held : Bool} {w : Word}
    (hw : (s.iackInput p).waiting held = true) (hz : ResetHeld s p → w = 0) (hu : u.wires = s.wires) :
    Wired i s (takeIackChange p held w u) :=
  .iack i p held w s _ (waiting_iff.1 hw) hz (takeIackChange_wires_congr hu)

theorem portResetEvent_wired {i : Instr} {p : Master} (hn : s.inputs.hrst.change = false)
    (hw : (s.prstInput p).waiting true = true) : Wired i s (portResetEvent p (takePrstChange p true s)) := by
  unfold portResetEvent
  split
  · next hh => exact .prstHeld i p s _ (waiting_iff.1 hw) ⟨hh, hn⟩ rfl
  · split
    · refine .prstReset i p s _ (waiting_iff.1 hw) ?_ ?_
      · rw [dispatchPass_ctx, portResetPresent_ctx, if_pos rfl]
        rfl
      · rw [dispatchPass_wires, portResetPresent_wires]
    · next hp =>
      refine .prstReset i p s _ (waiting_iff.1 hw) ?_ rfl
      rw [resetPortRecords_ctx, if_pos rfl]
      simpa [State.present] using hp

end

/-- The row of a command, on inputs and windows. -/
theorem exec_execution_wired {p : Master} {c : Code} {s t : State} (h : exec (Instr.execution p c) s = .next t) :
    Wired (Instr.execution p c) s t := by
  rcases exec_execution_cases p c s with hr | ⟨w, rest, -, hq, -, hroom, hr⟩ <;> cases hr.symm.trans h
  · exact .keep _ s s rfl
  · obtain ⟨header, hrep⟩ := reply_wires (p := p) (code := codeByte c) (answerCommand_wires c p w s)
    refine .reply _ p _ s _ (by simp [hq]) (fun hs => ?_) hrep
    have := answerCommand_data_length hs c p w
    simp only [List.length_cons]
    omega

/-- Every row does one of these things to the inputs and the windows. -/
theorem exec_wired (i : Instr) {s t : State} (h : exec i s = .next t) : Wired i s t := by
  induction i using rowCases
  case command p c => exact exec_execution_wired h
  case undefinedCode p =>
    rcases exec_undefinedCode_cases p s with hr | ⟨w, rest, -, hq, -, hroom, hr⟩ <;> cases hr.symm.trans h
    · exact .keep _ s s rfl
    · obtain ⟨header, hrep⟩ := reply_wires (s := s) (p := p) (code := codeField w) (ans := answer .badCmd s) rfl
      exact .reply _ p [header] s _ (by simp [hq]) (fun _ => hroom) hrep
  case rise n =>
    cases h
    split
    · exact .line _ n s _ rfl (riseEvent_wires _ _)
    · exact .keep _ s s rfl
  case fall n =>
    cases h
    split
    · exact .line _ n s _ rfl (fallEvent_wires _ _)
    · exact .keep _ s s rfl
  case hubReset =>
    cases h
    split
    · next hw => exact .hubReset _ s rfl (waiting_iff.1 hw)
    · exact .keep _ s s rfl
  case hubResetRelease req =>
    cases h
    split
    · next hw => exact .hubRelease _ req s _ rfl (waiting_iff.1 hw.2) rfl
    · exact .keep _ s s rfl
  case portReset p =>
    cases h
    split
    · next hw =>
      simp only [Bool.and_eq_true, Bool.not_eq_true'] at hw
      exact portResetEvent_wired hw.1 hw.2
    · exact .keep _ s s rfl
  case portResetRelease p =>
    cases h
    split
    · next hw => exact .prstRelease _ p s _ (waiting_iff.1 hw) rfl
    · exact .keep _ s s rfl
  case iackPulse p =>
    cases h
    split
    · next hw =>
      split
      · exact takeIackChange_wired hw (fun _ => rfl) rfl
      · next hig =>
        split
        · exact .keep _ s s rfl
        · exact takeIackChange_wired hw (fun hr => absurd ((iackIgnored_iff s p).2 (.inl hr)) hig)
            (acknowledge_wires p s)
    · exact .keep _ s s rfl
  case iackRelease p =>
    cases h
    split
    · next hw => exact takeIackChange_wired hw (fun _ => rfl) rfl
    · exact .keep _ s s rfl
  case ackRead p =>
    cases h
    split
    · exact .keep _ s s rfl
    · exact busRead_wired (.inl rfl) ((acknowledge_wires p s).trans (by rw [setPort_get]))
  case cmdWrite p w =>
    cases h
    split
    · exact .keep _ s s rfl
    · next hh =>
      have hopen : ¬ ResetHeld s p := fun hr => hh ((windowHeld_iff s p).2 hr)
      split
      · next hl => exact .write _ p _ s _ hopen (.inl ⟨hl, w, rfl⟩) rfl
      · exact .write _ p _ s _ hopen (.inr rfl) rfl
  case rplRead p =>
    cases h
    split
    · exact busRead_wired (.inl rfl) (by rw [setPort_get])
    · next w rest hr => exact busRead_wired (.inr rfl) (by rw [hr]; rfl)
  case windowWriteIgnored p o w =>
    cases h
    exact .keep _ s s rfl
  case tick sm =>
    cases h
    split
    · next hc => exact .sample _ sm s _ ((changeWaits_eq_false s).1 hc.1) rfl
    · exact .keep _ s s rfl
  case trefPeriod sm =>
    cases h
    split
    · exact .keep _ s s rfl
    · next hc =>
      have hn : NoChangeWaits s := (changeWaits_eq_false s).1 (by simpa using hc)
      split
      · exact .sample _ sm s _ hn rfl
      · split
        · exact .keep _ s s rfl
        · exact .sample _ sm s _ hn rfl
  case offerExpiry m =>
    cases h
    refine .keep _ s _ ?_
    split
    · split
      · simp
      · rfl
    · rfl
  case deadlineExpiry m src =>
    cases h
    refine .keep _ s _ ?_
    split
    · simp
    · rfl

/-! Command and reply queues (R147, R152) -/

/-- The command and reply queues of every port are within their sizes. -/
def WordsBounded (s : State) : Prop := ∀ p, (s.port p).commands.length ≤ 4 ∧ (s.port p).replies.length ≤ 16

section
variable {s t : State}

theorem wordsBounded_wires (h : t.wires = s.wires) (hs : WordsBounded s) : WordsBounded t := fun p => by
  rw [commands_of_bare (bare_of_wires h p), replies_of_bare (bare_of_wires h p)]
  exact hs p

/-- An update of one port within the sizes. -/
theorem wordsBounded_setPort {p : Master} {q : Port} (hs : WordsBounded s)
    (hq : q.commands.length ≤ 4 ∧ q.replies.length ≤ 16) : WordsBounded (s.setPort p q) := fun k => by
  rw [setPort_port]
  split
  · exact hq
  · exact hs k

theorem wordsBounded_takePrstChange {p : Master} {held : Bool} (hs : WordsBounded s) :
    WordsBounded (takePrstChange p held s) := fun k => by
  rw [takePrstChange_port]
  split
  · exact hs p
  · exact hs k

theorem wordsBounded_ignoreIackAssertion {p : Master} (hs : WordsBounded s) :
    WordsBounded (ignoreIackAssertion s p) := by
  unfold ignoreIackAssertion
  split
  · exact wordsBounded_setPort hs (hs p)
  · exact hs

theorem wordsBounded_hubRelease {req : BitVec 24} (hs : WordsBounded s) : WordsBounded (hubRelease req s) := by
  have hfold (l : List Master) : ∀ s, WordsBounded s → WordsBounded (l.foldl ignoreIackAssertion s) := by
    induction l with
    | nil => exact fun _ hs => hs
    | cons p l ih => exact fun s hs => ih _ (wordsBounded_ignoreIackAssertion hs)
  intro p
  rw [hubRelease, hubReleaseState_port]
  exact hfold masters s hs p

/-- Every row keeps the command and reply queues within their sizes. -/
theorem wired_wordsBounded {i : Instr} (h : Wired i s t) (hq : SignalQueuesBounded s) (hs : WordsBounded s) :
    WordsBounded t := by
  cases h with
  | keep _ _ h => exact wordsBounded_wires h hs
  | line n _ _ _ h => exact wordsBounded_wires h hs
  | reply p words _ _ hc hl h =>
    refine wordsBounded_wires h (wordsBounded_setPort hs ⟨?_, by simpa using hl hq⟩)
    exact (List.length_tail ▸ Nat.sub_le _ _ : (s.port p).commands.tail.length ≤ _).trans (hs p).1
  | write p q _ _ hh hwrite h =>
    refine wordsBounded_wires h (wordsBounded_setPort hs ?_)
    rcases hwrite with ⟨hl, w, rfl⟩ | rfl
    · exact ⟨by simpa using hl, (hs p).2⟩
    · exact hs p
  | read p w r _ _ hr h =>
    refine wordsBounded_wires h (wordsBounded_setPort hs ⟨(hs p).1, ?_⟩)
    have := (hs p).2
    rcases hr with rfl | rfl
    · exact this
    · simp only [List.length_tail]
      omega
  | iack p held w _ _ _ _ h => exact wordsBounded_wires h (wordsBounded_setPort hs (hs p))
  | prstHeld p _ _ _ _ h => exact wordsBounded_wires h (wordsBounded_takePrstChange hs)
  | prstReset p _ _ _ _ h =>
    refine wordsBounded_wires h fun k => ?_
    rw [resetPortRecords_port]
    split
    · exact ⟨Nat.zero_le _, Nat.zero_le _⟩
    · exact wordsBounded_takePrstChange hs k
  | prstRelease p _ _ _ h =>
    exact wordsBounded_wires h (wordsBounded_ignoreIackAssertion (wordsBounded_takePrstChange hs))
  | hubReset =>
    intro k
    rw [hubResetState_port]
    exact ⟨Nat.zero_le _, Nat.zero_le _⟩
  | hubRelease req _ _ _ _ h => exact wordsBounded_wires h (wordsBounded_hubRelease hs)
  | sample sm _ _ _ h => exact wordsBounded_wires h hs

end

end Sys2Proof.Machine

/-! PROOFS. Notice queues and signal queues (R131, R132, R160), and with them every queue within its size. -/

namespace Sys2Proof.Machine

open Sys2Proof.Safety

/-- A step executes the front row on the state with the rest, or there is none and nothing changes. -/
theorem step_row {s t : State} (h : step s = .next t) :
    t = s ∨ ∃ i rest, exec i (s.withPending rest) = .next t := by
  unfold step at h
  cases hq : s.pending with
  | nil =>
    rw [hq] at h
    cases h
    exact .inl rfl
  | cons i rest =>
    rw [hq] at h
    exact .inr ⟨i, rest, h⟩

/-! Notices (R160) -/

/-- The notice queue of every port is within its size. -/
def NoticesBounded (s : State) : Prop := ∀ p, (s.port p).notices.length ≤ 8

theorem noticedPort_bounded {n : Notice} {q : Port} (h : q.notices.length ≤ 8) :
    (noticedPort n q).notices.length ≤ 8 := by
  unfold noticedPort
  split
  · next hl => simpa using hl
  · exact h

section
variable {s u : State} {m : Master}

theorem noticesBounded_congr (hs : NoticesBounded s) (h : ∀ p, u.port p = s.port p) : NoticesBounded u := fun p => by
  rw [h p]
  exact hs p

theorem noticesBounded_queueNotice {n : Notice} (hs : NoticesBounded s) : NoticesBounded (queueNotice m n s) :=
  fun p => by
    rw [queueNotice_port]
    split
    · exact noticedPort_bounded (hs m)
    · exact hs p

theorem noticesBounded_notifyOthers {n : Notice} (hs : NoticesBounded s) : NoticesBounded (notifyOthers m n s) :=
  fun p => by
    rw [notifyOthers_port]
    split
    · exact noticedPort_bounded (hs p)
    · exact hs p

/-- What each turn of a fold keeps, the fold keeps. -/
theorem foldl_keeps {α : Type} {P : State → Prop} {f : State → α → State} (hf : ∀ s a, P s → P (f s a)) (l : List α)
    (hs : P s) : P (l.foldl f s) := by
  induction l generalizing s with
  | nil => exact hs
  | cons a l ih => exact ih (hf s a hs)

theorem noticesBounded_bindingPassage (hs : NoticesBounded s) : NoticesBounded (bindingPassage m s) :=
  foldl_keeps (fun s src hs p => by
    rw [passRoute_port]
    split
    · exact noticedPort_bounded (hs p)
    · exact hs p) sources hs

theorem noticesBounded_setPort {q : Port} (hs : NoticesBounded s) (hq : q.notices.length ≤ 8) :
    NoticesBounded (s.setPort m q) := fun p => by
  rw [setPort_port]
  split
  · exact hq
  · exact hs p

theorem noticesBounded_endLeaving (hs : NoticesBounded s) : NoticesBounded (endLeaving m s) := by
  have hp : NoticesBounded (bindingPassage m (setPortState m .offline s)) :=
    noticesBounded_bindingPassage (noticesBounded_congr hs (setPortState_port s m .offline))
  have hc := noticesBounded_setPort (m := m) (q := { (bindingPassage m (setPortState m .offline s)).port m with
    notices := [], noticeOverflow := false }) hp (Nat.zero_le 8)
  unfold endLeaving
  exact noticesBounded_notifyOthers (noticesBounded_congr hc fun p => by rw [updCtx_eq, setCtx_port]; rfl)

theorem noticesBounded_reclaimUncharged {e : Entry} (hs : NoticesBounded s) :
    NoticesBounded (reclaimUncharged m s e) := fun p => by
  rw [reclaimUncharged_port]
  split
  · exact noticedPort_bounded (hs m)
  · exact hs p

theorem noticesBounded_fenceMaster (hs : NoticesBounded s) : NoticesBounded (fenceMaster m s) := by
  rw [fenceMaster_eq]
  refine noticesBounded_notifyOthers (noticesBounded_bindingPassage ?_)
  refine noticesBounded_congr (s := reclaimAll m (s.ctx m).stack (withdraw m s)) ?_ fun _ => rfl
  have hw : NoticesBounded (withdraw m s) := noticesBounded_congr hs (by simp)
  exact foldl_keeps (P := NoticesBounded) (fun _ _ => noticesBounded_reclaimUncharged) _ hw

theorem noticesBounded_resetPortRecords (hs : NoticesBounded s) : NoticesBounded (resetPortRecords m s) := fun p => by
  rw [resetPortRecords_port]
  split
  · exact Nat.zero_le _
  · exact hs p

theorem noticesBounded_portResetPresent (hs : NoticesBounded s) : NoticesBounded (portResetPresent m s) := by
  rw [portResetPresent_eq]
  exact noticesBounded_notifyOthers <| noticesBounded_resetPortRecords <| noticesBounded_bindingPassage <|
    noticesBounded_congr hs fun p => departedRecords_port m s p

theorem noticesBounded_chargedRecords {src : Source} (hs : NoticesBounded s) :
    NoticesBounded (chargedRecords m src s) := fun p => by
  rw [chargedRecords_port]
  split
  · exact noticedPort_bounded (hs m)
  · exact hs p

/-- Every event keeps notices within their size. -/
theorem event_noticesBounded {i : Instr} {b : Bool} (h : Event i s b u) (hs : NoticesBounded s) :
    NoticesBounded u := by
  cases h with
  | idle => exact hs
  | notice p =>
    refine noticesBounded_setPort hs ?_
    exact (List.length_tail ▸ Nat.sub_le _ _ : (s.port p).notices.tail.length ≤ _).trans (hs p)
  | hubReset =>
    intro p
    rw [hubResetState_port]
    exact Nat.zero_le _
  | hubRelease => exact noticesBounded_congr hs fun p => hubReleaseState_port ..
  | portReset => exact noticesBounded_portResetPresent hs
  | portResetOffline => exact noticesBounded_resetPortRecords hs
  | reclaim => exact noticesBounded_chargedRecords hs
  | reclaimFence => exact noticesBounded_fenceMaster (noticesBounded_chargedRecords hs)
  | reclaimLeave => exact noticesBounded_endLeaving (noticesBounded_chargedRecords hs)
  | fence => exact noticesBounded_fenceMaster hs
  | leaveEmpty => exact noticesBounded_endLeaving hs
  | completeLeave =>
    exact noticesBounded_endLeaving (noticesBounded_congr hs fun p => completedRecords_port _ _ s p)
  | join => exact noticesBounded_notifyOthers (noticesBounded_congr hs (by simp))
  | unfence m =>
    intro p
    rw [readmit_port]
    split
    · exact Nat.zero_le _
    · exact hs p
  | take => exact noticesBounded_congr hs fun p => takeSource_port ..
  | complete => exact noticesBounded_congr hs fun p => completedRecords_port ..
  | flush => exact noticesBounded_congr hs fun p => flushQueue_port ..
  | rise | fallEdge | fallLevel | fallOffered | tick | lapse | leaveBusy | modes | settings | setFence | configure
  | trig | raise | raiseIdle | late => exact noticesBounded_congr hs (by simp)

/-! Signal queues (R131, R132) -/

theorem signalQueuesBounded_congr (hs : SignalQueuesBounded s) (h : ∀ g, u.queue g = s.queue g) :
    SignalQueuesBounded u := fun g => by
  rw [h g]
  exact hs g

theorem signalQueuesBounded_setQueue {g : SignalIndex} {l : List Signal} (hs : SignalQueuesBounded s)
    (hl : l.length ≤ 4) : SignalQueuesBounded (s.setQueue g l) := fun k => by
  rw [setQueue_queue]
  split
  · exact hl
  · exact hs k

theorem signalQueuesBounded_completedRecords {src : Source} (hs : SignalQueuesBounded s) :
    SignalQueuesBounded (completedRecords m src s) := fun g => by
  rw [completedRecords_queue]
  split
  · simp only [List.length_tail]
    exact (Nat.sub_le _ _).trans (hs g)
  · exact hs g

/-- Every event keeps signal queues within their size. -/
theorem event_signalQueuesBounded {i : Instr} {b : Bool} (h : Event i s b u) (hs : SignalQueuesBounded s) :
    SignalQueuesBounded u := by
  cases h with
  | idle => exact hs
  | hubReset =>
    intro g
    rw [hubResetState_queue]
    exact Nat.zero_le _
  | hubRelease => exact signalQueuesBounded_congr hs fun g => hubReleaseState_queue ..
  | take p src via =>
    intro g
    rw [takeSource_queue]
    split
    · simp only [List.length_tail]
      exact (Nat.sub_le _ _).trans (hs g)
    · exact hs g
  | complete => exact signalQueuesBounded_completedRecords hs
  | completeLeave => exact signalQueuesBounded_congr (signalQueuesBounded_completedRecords hs) (endLeaving_queue _ _)
  | flush g =>
    unfold flushQueue
    split
    · exact hs
    · exact signalQueuesBounded_congr (signalQueuesBounded_setQueue (l := []) hs (Nat.zero_le 4)) fun _ => rfl
    all_goals exact signalQueuesBounded_setQueue hs ((List.length_take_le _ _).trans (by decide))
  | raise g x _ hl => exact signalQueuesBounded_setQueue hs (by simpa using hl)
  | raiseIdle g x _ hl => exact signalQueuesBounded_setQueue hs (by simpa using hl)
  | reclaim => exact signalQueuesBounded_congr hs (by simp)
  | reclaimFence => exact signalQueuesBounded_congr hs (by simp)
  | reclaimLeave => exact signalQueuesBounded_congr hs (by simp)
  | fence => exact signalQueuesBounded_congr hs (by simp)
  | leaveEmpty => exact signalQueuesBounded_congr hs (by simp)
  | join => exact signalQueuesBounded_congr hs (by simp)
  | portReset => exact signalQueuesBounded_congr hs (by simp)
  | notice | portResetOffline | rise | fallEdge | fallLevel | fallOffered | tick | lapse | leaveBusy | unfence | modes
  | settings | setFence | configure | trig | late => exact signalQueuesBounded_congr hs (by simp)

/-- Notice and signal queues within their sizes. -/
def RecordQueuesBounded (s : State) : Prop := NoticesBounded s ∧ SignalQueuesBounded s

theorem step_recordQueuesBounded (hs : RecordQueuesBounded s) (h : step s = .next u) : RecordQueuesBounded u := by
  refine step_keeps (fun s t h hs => ⟨fun p => ?_, signalQueuesBounded_congr hs.2 h.queue⟩)
    (fun s m hs => ⟨noticesBounded_congr hs.1 ?_, signalQueuesBounded_congr hs.2 ?_⟩)
    (fun s src hs => ⟨noticesBounded_congr hs.1 ?_, signalQueuesBounded_congr hs.2 ?_⟩)
    (fun i s b u h hs => ⟨event_noticesBounded h hs.1, event_signalQueuesBounded h hs.2⟩)
    (fun s hs => ⟨noticesBounded_congr hs.1 ?_, signalQueuesBounded_congr hs.2 ?_⟩) hs h
  · rw [(h.notices p).1]
    exact hs.1 p
  all_goals simp

end

/-- Settles O57. -/
theorem everyStepKeepsQueuesBounded : Obligations.EveryStepKeepsQueuesBounded := by
  unfold Obligations.EveryStepKeepsQueuesBounded
  intro s t hp hq h
  obtain ⟨hn, hsig⟩ := step_recordQueuesBounded ⟨fun p => (hp p).2.2, hq⟩ h
  have hw : WordsBounded t := by
    have hs : WordsBounded s := fun p => ⟨(hp p).1, (hp p).2.1⟩
    rcases step_row h with rfl | ⟨i, rest, hrow⟩
    · exact hs
    · exact wired_wordsBounded (exec_wired i hrow) hq hs
  exact ⟨fun p => ⟨(hw p).1, (hw p).2, hn p⟩, hsig⟩

end Sys2Proof.Machine

/-! PROOFS. Trackers, offer records and in-service stacks name the same pairs (R6, R7, R62). -/

namespace Sys2Proof.Machine

open Sys2Proof.Safety

/-! The matching of one source -/

/-- A source that is neither OFFERED nor INSERVICE. -/
def Resting (t : Tracker) : Prop := t.state = .idle ∨ t.state = .pending

/-- The stack of `m` holds an entry for `i`. -/
def Stacked (s : State) (m : Master) (i : Source) : Prop := i ∈ (s.ctx m).stack.map (·.source)

/-- The tracker of `i`, the offer records and the stacks agree on its holder (R6, R7, R62). -/
structure SourceMatch (s : State) (i : Source) : Prop where
  held    : (s.tracker i).holder.isSome = true ↔ ((s.tracker i).state = .offered ∨ (s.tracker i).state = .inService)
  offered : ∀ m, OwnOffer s m i ↔ ((s.tracker i).state = .offered ∧ (s.tracker i).holder = some m)
  stacked : ∀ m, Stacked s m i ↔ ((s.tracker i).state = .inService ∧ (s.tracker i).holder = some m)

/-- The stack of every master holds at most one entry for a source (R6). -/
def StacksDistinct (s : State) : Prop := ∀ m, ((s.ctx m).stack.map (·.source)).Nodup

/-- Every source is matched, and no stack holds two entries for one. -/
def PairsMatch (s : State) : Prop := (∀ i, SourceMatch s i) ∧ StacksDistinct s

theorem stacked_iff {s : State} {m : Master} {i : Source} : Stacked s m i ↔ ∃ e ∈ (s.ctx m).stack, e.source = i :=
  List.mem_map

/-- The matching by sources is that of the statements. -/
theorem pairsMatch_iff {s : State} : PairsMatch s ↔ HolderPresent s ∧ OffersMatch s ∧ StacksMatch s := by
  constructor
  · rintro ⟨h, hd⟩
    refine ⟨fun i => (h i).held, ⟨fun m o ho => ?_, fun i hi => ?_⟩, fun m e he => ?_, fun i hi => ?_, hd⟩
    · exact ((h o.source).offered m).1 (ownOffer_iff.2 ⟨o, ho, rfl⟩)
    · obtain ⟨m, hm⟩ := Option.isSome_iff_exists.1 ((h i).held.2 (.inl hi))
      obtain ⟨o, ho, hs⟩ := ownOffer_iff.1 (((h i).offered m).2 ⟨hi, hm⟩)
      exact ⟨m, o, hm, ho, hs⟩
    · exact ((h e.source).stacked m).1 (stacked_iff.2 ⟨e, he, rfl⟩)
    · obtain ⟨m, hm⟩ := Option.isSome_iff_exists.1 ((h i).held.2 (.inr hi))
      exact ⟨m, hm, stacked_iff.1 (((h i).stacked m).2 ⟨hi, hm⟩)⟩
  · rintro ⟨hh, ⟨ho, ho'⟩, hs, hs', hd⟩
    refine ⟨fun i => ⟨hh i, fun m => ⟨fun hown => ?_, fun ⟨hi, hm⟩ => ?_⟩,
      fun m => ⟨fun hst => ?_, fun ⟨hi, hm⟩ => ?_⟩⟩, hd⟩
    · obtain ⟨o, hmo, rfl⟩ := ownOffer_iff.1 hown
      exact ho m o hmo
    · obtain ⟨k, o, hk, hko, hsrc⟩ := ho' i hi
      obtain rfl : k = m := Option.some.inj (hk.symm.trans hm)
      exact ownOffer_iff.2 ⟨o, hko, hsrc⟩
    · obtain ⟨e, he, rfl⟩ := stacked_iff.1 hst
      exact hs m e he
    · obtain ⟨k, hk, he⟩ := hs' i hi
      obtain rfl : k = m := Option.some.inj (hk.symm.trans hm)
      exact stacked_iff.2 he

section
variable {s u : State} {i : Source} {m : Master}

theorem SourceMatch.holder_of_resting (h : SourceMatch s i) (hr : Resting (s.tracker i)) :
    (s.tracker i).holder = none := by
  rw [← Option.not_isSome_iff_eq_none, h.held]
  rcases hr with hr | hr <;> simp [hr]

theorem SourceMatch.not_ownOffer (h : SourceMatch s i) (hr : (s.tracker i).state ≠ .offered) : ¬ OwnOffer s m i :=
  fun ho => hr ((h.offered m).1 ho).1

theorem SourceMatch.not_stacked (h : SourceMatch s i) (hr : (s.tracker i).state ≠ .inService) : ¬ Stacked s m i :=
  fun ho => hr ((h.stacked m).1 ho).1

theorem Resting.ne_offered {t : Tracker} (h : Resting t) : t.state ≠ .offered := by rcases h with h | h <;> simp [h]

theorem Resting.ne_inService {t : Tracker} (h : Resting t) : t.state ≠ .inService := by
  rcases h with h | h <;> simp [h]

theorem resting_of {t : Tracker} (ho : t.state ≠ .offered) (hs : t.state ≠ .inService) : Resting t := by
  cases h : t.state
  · exact .inl h
  · exact .inr h
  · exact absurd h ho
  · exact absurd h hs

/-- A source at rest, without an offer and without an entry. -/
theorem sourceMatch_of_resting (hr : Resting (u.tracker i)) (hh : (u.tracker i).holder = none)
    (ho : ∀ k, ¬ OwnOffer u k i) (hs : ∀ k, ¬ Stacked u k i) : SourceMatch u i where
  held := by simp [hh, hr.ne_offered, hr.ne_inService]
  offered k := by simp [ho k, hr.ne_offered]
  stacked k := by simp [hs k, hr.ne_inService]

/-- `t'` has the state and holder of `t`, or both are at rest. -/
def SameHold (t t' : Tracker) : Prop :=
  (t'.state = t.state ∧ t'.holder = t.holder) ∨
    (Resting t ∧ Resting t' ∧ (t'.holder = t.holder ∨ t'.holder = none))

theorem SameHold.refl (t : Tracker) : SameHold t t := .inl ⟨rfl, rfl⟩

/-- A change that names the same pairs keeps a source matched. -/
theorem sourceMatch_congr (h : SourceMatch s i) (ht : SameHold (s.tracker i) (u.tracker i))
    (ho : ∀ k, OwnOffer u k i ↔ OwnOffer s k i) (hs : ∀ k, Stacked u k i ↔ Stacked s k i) : SourceMatch u i := by
  rcases ht with ⟨hst, hh⟩ | ⟨hr, hr', hh⟩
  · exact ⟨by rw [hst, hh]; exact h.held, fun k => by rw [hst, hh, ho k]; exact h.offered k,
      fun k => by rw [hst, hh, hs k]; exact h.stacked k⟩
  · refine sourceMatch_of_resting hr' ?_ (fun k => ?_) fun k => ?_
    · rcases hh with hh | hh
      · rw [hh]
        exact h.holder_of_resting hr
      · exact hh
    · rw [ho k]
      exact h.not_ownOffer hr.ne_offered
    · rw [hs k]
      exact h.not_stacked hr.ne_inService

/-- A change that names the same pairs keeps all sources matched. -/
theorem pairsMatch_congr (h : PairsMatch s) (ht : ∀ i, SameHold (s.tracker i) (u.tracker i))
    (ho : ∀ k, (u.offer k).map (·.source) = (s.offer k).map (·.source))
    (hs : ∀ k, (u.ctx k).stack.map (·.source) = (s.ctx k).stack.map (·.source)) : PairsMatch u := by
  refine ⟨fun i => sourceMatch_congr (h.1 i) (ht i) (fun k => ?_) fun k => ?_, fun k => ?_⟩
  · rw [OwnOffer, OwnOffer, ho k]
  · rw [Stacked, Stacked, hs k]
  · rw [hs k]
    exact h.2 k

/-- An update of contexts that keeps the stacks. -/
theorem pairsMatch_stacks (h : PairsMatch s) (ht : ∀ i, u.tracker i = s.tracker i) (ho : ∀ k, u.offer k = s.offer k)
    (hs : ∀ k, (u.ctx k).stack = (s.ctx k).stack) : PairsMatch u :=
  pairsMatch_congr h (fun i => by rw [ht i]; exact .refl _) (fun k => by rw [ho k]) fun k => by rw [hs k]

/-- One context replaced, its stack kept. -/
theorem pairsMatch_ite {c : Context} (h : PairsMatch s) (ht : ∀ i, u.tracker i = s.tracker i)
    (ho : ∀ k, u.offer k = s.offer k) (hc : ∀ k, u.ctx k = if m = k then c else s.ctx k)
    (hs : c.stack = (s.ctx m).stack) : PairsMatch u :=
  pairsMatch_stacks h ht ho fun k => by
    rw [hc k]
    exact ctx_ite Context.stack hs

theorem pairsMatch_setQueue {g : SignalIndex} {l : List Signal} (h : PairsMatch s) : PairsMatch (s.setQueue g l) :=
  pairsMatch_stacks h (by simp) (by simp) (by simp)

/-! Offers withdrawn and made -/

@[simp] theorem waiting_resting (t : Tracker) : Resting (waiting t) := .inr rfl

/-- An offer record emptied, its source gone to rest: a withdrawal, or a lapse (R63, R79). -/
theorem pairsMatch_unoffered (h : PairsMatch s) (hown : ∀ k, (u.offer k) = if m = k then none else s.offer k)
    (hself : ∀ i, OwnOffer s m i → Resting (u.tracker i) ∧ (u.tracker i).holder = none)
    (hother : ∀ i, ¬ OwnOffer s m i → u.tracker i = s.tracker i) (hc : ∀ k, u.ctx k = s.ctx k) : PairsMatch u := by
  have hst (k : Master) (i : Source) : Stacked u k i ↔ Stacked s k i := by rw [Stacked, Stacked, hc k]
  refine ⟨fun i => ?_, fun k => by rw [hc k]; exact h.2 k⟩
  by_cases hi : OwnOffer s m i
  · obtain ⟨ho, hm⟩ := ((h.1 i).offered m).1 hi
    obtain ⟨hr, hn⟩ := hself i hi
    refine sourceMatch_of_resting hr hn (fun k hk => ?_) fun k hk => ?_
    · rw [OwnOffer, hown k] at hk
      split at hk
      · simp at hk
      · next hne =>
        have := (((h.1 i).offered k).1 hk).2
        exact hne (Option.some.inj (hm.symm.trans this))
    · exact (h.1 i).not_stacked (by simp [ho]) ((hst k i).1 hk)
  · refine sourceMatch_congr (h.1 i) (by rw [hother i hi]; exact .refl _) (fun k => ?_) (hst · i)
    rw [OwnOffer, hown k]
    split
    · next hk =>
      subst hk
      simp [hi]
    · rfl

theorem pairsMatch_withdraw (h : PairsMatch s) : PairsMatch (withdraw m s) := by
  refine pairsMatch_unoffered h (fun k => withdraw_offer m k s) (fun i hi => ?_) (fun i hi => ?_)
    fun k => withdraw_ctx m k s
  · rw [withdraw_tracker, if_pos (show (s.offer m).map (·.source) = some i from hi)]
    exact ⟨.inr rfl, rfl⟩
  · rw [withdraw_tracker, if_neg (show ¬ (s.offer m).map (·.source) = some i from hi)]

/-- Of a matched source, the withdrawal by source is that of its holder (R7, R63). -/
theorem withdrawSource_eq (h : SourceMatch s i) (ho : (s.tracker i).state = .offered) :
    ∃ m, (s.tracker i).holder = some m ∧ withdrawSource i s = withdraw m s := by
  obtain ⟨m, hm⟩ := Option.isSome_iff_exists.1 (h.held.2 (.inl ho))
  obtain ⟨o, hmo, rfl⟩ := ownOffer_iff.1 ((h.offered m).2 ⟨ho, hm⟩)
  exact ⟨m, hm, by rw [withdrawSource_of_offered ho hm, withdraw_of_some hmo]⟩

theorem pairsMatch_withdrawSource (h : PairsMatch s) : PairsMatch (withdrawSource i s) := by
  by_cases ho : (s.tracker i).state = .offered
  · obtain ⟨m, -, hw⟩ := withdrawSource_eq (h.1 i) ho
    rw [hw]
    exact pairsMatch_withdraw h
  · rw [withdrawSource_of_not_offered ho]
    exact h

theorem pairsMatch_lapseOffer {o : Offer} (h : PairsMatch s) (ho : s.offer m = some o) :
    PairsMatch (lapseOffer m o s) := by
  have hown (i : Source) : OwnOffer s m i ↔ o.source = i := by simp [OwnOffer, ho]
  refine pairsMatch_unoffered h (fun k => lapseOffer_offer s m o k) (fun i hi => ?_) (fun i hi => ?_) fun _ => rfl
  · rw [lapseOffer_tracker, if_pos ((hown i).1 hi)]
    exact ⟨.inr rfl, rfl⟩
  · rw [lapseOffer_tracker, if_neg (mt (hown i).2 hi)]

theorem makeOffer_tracker (src : Source) :
    (makeOffer src m s).tracker i = if src = i then (s.tracker i).toOffered m else s.tracker i := by
  rw [makeOffer, setOffer_tracker, updTracker_eq, setTracker_tracker]
  split
  · next h => rw [h]
  · rfl

theorem ownOffer_makeOffer {src : Source} {k : Master} :
    OwnOffer (makeOffer src m s) k i ↔ if m = k then src = i else OwnOffer s k i := by
  rw [OwnOffer, makeOffer, setOffer_offer]
  split
  · simp
  · rfl

/-- An offer of a PENDING source in an empty record (R75). -/
theorem pairsMatch_makeOffer {src : Source} (h : PairsMatch s) (hm : s.offer m = none)
    (hp : (s.tracker src).state = .pending) : PairsMatch (makeOffer src m s) := by
  have hc (k : Master) : (makeOffer src m s).ctx k = s.ctx k := (makeOffer_frame src m s).ctx_eq k
  have hst (k : Master) (i : Source) : Stacked (makeOffer src m s) k i ↔ Stacked s k i := by
    rw [Stacked, Stacked, hc k]
  have hnone (i : Source) : ¬ OwnOffer s m i := by simp [OwnOffer, hm]
  refine ⟨fun i => ?_, fun k => by rw [hc k]; exact h.2 k⟩
  by_cases hi : src = i
  · subst hi
    have ht : (makeOffer src m s).tracker src = (s.tracker src).toOffered m := by rw [makeOffer_tracker, if_pos rfl]
    refine ⟨by rw [ht]; simp [Tracker.toOffered], fun k => ?_, fun k => ?_⟩
    · rw [ht, ownOffer_makeOffer]
      split
      · next hk => simp [hk, Tracker.toOffered]
      · next hk => simp [hk, Tracker.toOffered, (h.1 src).not_ownOffer (m := k) (by simp [hp])]
    · rw [ht, hst]
      simp [Tracker.toOffered, (h.1 src).not_stacked (m := k) (by simp [hp])]
  · refine sourceMatch_congr (h.1 i) ?_ (fun k => ?_) (hst · i)
    · rw [makeOffer_tracker, if_neg hi]
      exact .refl _
    · rw [ownOffer_makeOffer]
      split
      · next hk =>
        subst hk
        simp [hi, hnone i]
      · rfl

theorem pairsMatch_setTracker {x : Tracker} (h : PairsMatch s) (hx : SameHold (s.tracker i) x) :
    PairsMatch (s.setTracker i x) := by
  refine pairsMatch_congr h (fun j => ?_) (fun _ => rfl) fun _ => rfl
  rw [setTracker_tracker]
  split
  · next hj => exact hj ▸ hx
  · exact .refl _

/-- A pass keeps the pairs matched (R62). -/
theorem pairsMatch_dispatchPass (h : PairsMatch s) : PairsMatch (dispatchPass s) :=
  dispatchPass_keeps (fun _ _ => pairsMatch_withdraw) (fun _ _ h => pairsMatch_setTracker h (.inl ⟨rfl, rfl⟩))
    (fun _ _ _ h hm hoff _ => pairsMatch_makeOffer h hm (offerable_iff.1 hoff).1) h

/-! Entries removed and pushed -/

/-- The entries of `m` for the sources `l` removed, those sources at rest: completions, reclaims and releases. -/
theorem pairsMatch_unstacked {l : Source → Prop} (h : PairsMatch s) (ho : ∀ k, u.offer k = s.offer k)
    (hl : ∀ i, l i → Stacked s m i) (hin : ∀ i, l i → Resting (u.tracker i) ∧ (u.tracker i).holder = none)
    (hout : ∀ i, ¬ l i → u.tracker i = s.tracker i) (hother : ∀ k, m ≠ k → (u.ctx k).stack = (s.ctx k).stack)
    (hself : ∀ i, Stacked u m i ↔ (Stacked s m i ∧ ¬ l i))
    (hsub : (u.ctx m).stack.Sublist (s.ctx m).stack) : PairsMatch u := by
  have hown (k : Master) (i : Source) : OwnOffer u k i ↔ OwnOffer s k i := by rw [OwnOffer, OwnOffer, ho k]
  refine ⟨fun i => ?_, fun k => ?_⟩
  · by_cases hi : l i
    · obtain ⟨hst, hm⟩ := ((h.1 i).stacked m).1 (hl i hi)
      obtain ⟨hr, hn⟩ := hin i hi
      refine sourceMatch_of_resting hr hn (fun k hk => ?_) fun k hk => ?_
      · exact (h.1 i).not_ownOffer (by simp [hst]) ((hown k i).1 hk)
      · by_cases hkm : m = k
        · subst hkm
          exact ((hself i).1 hk).2 hi
        · rw [Stacked, hother k hkm] at hk
          exact hkm (Option.some.inj (hm.symm.trans (((h.1 i).stacked k).1 hk).2))
    · refine sourceMatch_congr (h.1 i) (by rw [hout i hi]; exact .refl _) (hown · i) fun k => ?_
      by_cases hkm : m = k
      · subst hkm
        simp [hself i, hi]
      · rw [Stacked, Stacked, hother k hkm]
  · by_cases hkm : m = k
    · subst hkm
      exact (hsub.map _).nodup (h.2 m)
    · rw [hother k hkm]
      exact h.2 k

theorem interrupt_resting (t : Tracker) (b : Bool) : Resting (t.interrupt b) := .inr (interrupt_state t b)

/-- All entries of `m` removed and their sources interrupted (R46, R49). -/
theorem pairsMatch_emptied (h : PairsMatch s) (ho : ∀ k, u.offer k = s.offer k)
    (ht : ∀ i, Stacked s m i → Resting (u.tracker i) ∧ (u.tracker i).holder = none)
    (hout : ∀ i, ¬ Stacked s m i → u.tracker i = s.tracker i) (hother : ∀ k, m ≠ k → (u.ctx k).stack = (s.ctx k).stack)
    (hself : (u.ctx m).stack = []) : PairsMatch u :=
  pairsMatch_unstacked (m := m) (l := Stacked s m) h ho (fun _ hi => hi) ht hout hother
    (fun i => by simp [Stacked, hself]) (by rw [hself]; exact List.nil_sublist _)

theorem pairsMatch_fenceMaster (h : PairsMatch s) : PairsMatch (fenceMaster m s) := by
  have hst (i : Source) : Stacked (withdraw m s) m i ↔ i ∈ (s.ctx m).stack.map (·.source) := by
    rw [Stacked, withdraw_ctx]
  refine pairsMatch_emptied (s := withdraw m s) (m := m) (pairsMatch_withdraw h) (fun k => ?_)
    (fun i hi => ?_) (fun i hi => ?_) (fun k hk => ?_) ?_
  · rw [fenceMaster_offer, withdraw_offer]
  · rw [fenceMaster_tracker, if_pos ((hst i).1 hi)]
    exact ⟨interrupt_resting _ _, interrupt_holder _ _⟩
  · rw [fenceMaster_tracker, if_neg (mt (hst i).2 hi)]
  · rw [fenceMaster_ctx, if_neg hk, withdraw_ctx]
  · rw [fenceMaster_ctx, if_pos rfl]

theorem pairsMatch_portResetPresent (h : PairsMatch s) : PairsMatch (portResetPresent m s) := by
  have hst (i : Source) : Stacked (withdraw m s) m i ↔ i ∈ (s.ctx m).stack.map (·.source) := by
    rw [Stacked, withdraw_ctx]
  refine pairsMatch_emptied (s := withdraw m s) (m := m) (pairsMatch_withdraw h) (fun k => ?_)
    (fun i hi => ?_) (fun i hi => ?_) (fun k hk => ?_) ?_
  · rw [portResetPresent_offer, withdraw_offer]
  · rw [portResetPresent_tracker, if_pos ((hst i).1 hi)]
    exact ⟨interrupt_resting _ _, interrupt_holder _ _⟩
  · rw [portResetPresent_tracker, if_neg (mt (hst i).2 hi)]
  · rw [portResetPresent_ctx, if_neg hk, withdraw_ctx]
  · rw [portResetPresent_ctx, if_pos rfl]
    rfl

/-- The entry for one source removed and that source at rest (R101, R118). -/
theorem pairsMatch_removed {src : Source} (h : PairsMatch s) (hsrc : Stacked s m src)
    (ho : ∀ k, u.offer k = s.offer k) (hin : Resting (u.tracker src) ∧ (u.tracker src).holder = none)
    (hout : ∀ i, src ≠ i → u.tracker i = s.tracker i) (hother : ∀ k, m ≠ k → (u.ctx k).stack = (s.ctx k).stack)
    (hself : (u.ctx m).stack = removeEntry src (s.ctx m).stack) : PairsMatch u := by
  refine pairsMatch_unstacked (m := m) (l := (src = ·)) h ho (fun i hi => hi ▸ hsrc) (fun i hi => hi ▸ hin) hout
    hother (fun i => ?_) (hself ▸ removeEntry_sublist src _)
  rw [stacked_iff, stacked_iff, hself]
  simp only [mem_removeEntry]
  constructor
  · rintro ⟨e, ⟨he, hne⟩, rfl⟩
    exact ⟨⟨e, he, rfl⟩, Ne.symm hne⟩
  · rintro ⟨⟨e, he, rfl⟩, hne⟩
    exact ⟨e, ⟨he, Ne.symm hne⟩, rfl⟩

theorem pairsMatch_chargedRecords {src : Source} (h : PairsMatch s) (hsrc : Stacked s m src) :
    PairsMatch (chargedRecords m src s) := by
  refine pairsMatch_removed h hsrc (by simp) ?_ (fun i hi => ?_) (fun k hk => ?_) ?_
  · rw [chargedRecords_tracker, if_pos rfl]
    exact ⟨interrupt_resting _ _, interrupt_holder _ _⟩
  · rw [chargedRecords_tracker, if_neg hi]
  · rw [chargedRecords_ctx, if_neg hk]
  · rw [chargedRecords_ctx, if_pos rfl]

/-- A source at rest after a completion (R14). -/
theorem completeLine_rests (t : Tracker) (x : Trigger) :
    Resting (t.completeLine x) ∧ (t.completeLine x).holder = none := by
  unfold Tracker.completeLine
  cases x <;> dsimp only <;> split <;> simp [Resting, Tracker.toPending, Tracker.toIdle]

theorem completeSignal_rests (t : Tracker) (l : List Signal) :
    Resting (t.completeSignal l) ∧ (t.completeSignal l).holder = none := by
  unfold Tracker.completeSignal
  split <;> simp [Resting, Tracker.toPending, Tracker.toIdle]

theorem pairsMatch_completedRecords {src : Source} (h : PairsMatch s) (hsrc : Stacked s m src) :
    PairsMatch (completedRecords m src s) := by
  refine pairsMatch_removed h hsrc (by simp) ?_ (fun i hi => ?_) (fun k hk => ?_) ?_
  · rw [completedRecords_tracker, if_pos rfl]
    split
    · exact completeSignal_rests _ _
    · exact completeLine_rests _ _
  · rw [completedRecords_tracker, if_neg hi]
  · rw [completedRecords_ctx, if_neg hk]
  · rw [completedRecords_ctx, if_pos rfl]

/-- What a master takes is not in service, and no other master holds its offer (R89, R90). -/
theorem not_held_of_candidate {p : Master} {src : Source} (h : PairsMatch s) (hc : PollCandidate s p src) :
    (s.tracker src).state ≠ .inService ∧ ∀ k, OwnOffer s k src → k = p := by
  rcases hc with hc | hc
  · obtain ⟨ho, hp⟩ := ((h.1 src).offered p).1 hc
    refine ⟨by simp [ho], fun k hk => ?_⟩
    exact (Option.some.inj (hp.symm.trans (((h.1 src).offered k).1 hk).2)).symm
  · refine ⟨by simp [hc.1], fun k hk => ?_⟩
    exact absurd hk ((h.1 src).not_ownOffer (by simp [hc.1]))

/-- A take (R93 to R95). -/
theorem pairsMatch_takeSource {p : Master} {src : Source} {via : Via} (h : PairsMatch s) (hc : PollCandidate s p src) :
    PairsMatch (takeSource p src via s) := by
  obtain ⟨hns, hown⟩ := not_held_of_candidate h hc
  have hnstack (k : Master) : ¬ Stacked s k src := (h.1 src).not_stacked hns
  have hoff (k : Master) (i : Source) : OwnOffer (takeSource p src via s) k i ↔ (OwnOffer s k i ∧ src ≠ i) := by
    rw [OwnOffer, takeSource_offer]
    by_cases hk : p = k
    · subst hk
      by_cases ho : (s.offer p).map (·.source) = some src
      · simp [ho, OwnOffer]
      · have : OwnOffer s p i → src ≠ i := by
          rintro hi rfl
          exact ho hi
        simp only [ho, and_false, if_false]
        exact ⟨fun hi => ⟨hi, this hi⟩, And.left⟩
    · simp only [hk, false_and, if_false]
      refine ⟨fun hi => ⟨hi, ?_⟩, And.left⟩
      rintro rfl
      exact hk (hown k hi).symm
  have hstack (k : Master) : ((takeSource p src via s).ctx k).stack.map (·.source) =
      (s.ctx k).stack.map (·.source) ++ if p = k ∧ (s.route src).autodone = false then [src] else [] := by
    rw [takeSource_ctx]
    by_cases hk : p = k
    · subst hk
      cases (s.route src).autodone <;> simp [newEntry]
    · simp [hk]
  have hst (k : Master) (i : Source) : Stacked (takeSource p src via s) k i ↔
      (Stacked s k i ∨ (p = k ∧ (s.route src).autodone = false ∧ i = src)) := by
    rw [Stacked, hstack k, List.mem_append]
    by_cases hk : p = k ∧ (s.route src).autodone = false
    · simp [hk, Stacked]
    · rw [if_neg hk]
      simp only [Stacked, List.not_mem_nil, or_false, iff_self_or]
      exact fun hx => absurd ⟨hx.1, hx.2.1⟩ hk
  refine ⟨fun i => ?_, fun k => ?_⟩
  · by_cases hi : src = i
    · subst hi
      cases ha : (s.route src).autodone
      · have ht : (takeSource p src via s).tracker src =
            { s.tracker src with state := .inService, holder := some p, merged := false } := by
          rw [takeSource_tracker, if_pos rfl, ha, if_neg (by simp)]
        refine ⟨by simp [ht], fun k => by simp [ht, hoff], fun k => ?_⟩
        simp [ht, hst, hnstack, ha]
      · have ht : Resting ((takeSource p src via s).tracker src) ∧
            ((takeSource p src via s).tracker src).holder = none := by
          rw [takeSource_tracker, if_pos rfl, if_pos ha]
          split
          · exact completeSignal_rests _ _
          · exact completeLine_rests _ _
        exact sourceMatch_of_resting ht.1 ht.2 (fun k => by simp [hoff]) fun k => by simp [hst, hnstack, ha]
    · refine sourceMatch_congr (h.1 i) ?_ (fun k => by simp [hoff, hi]) fun k => by simp [hst, Ne.symm hi]
      rw [takeSource_tracker, if_neg hi]
      exact .refl _
  · rw [hstack]
    split
    · exact List.nodup_append.2 ⟨h.2 k, by simp, fun a ha b hb => by
        rintro rfl
        exact hnstack k ((List.mem_singleton.1 hb) ▸ ha)⟩
    · rw [List.append_nil]
      exact h.2 k

/-! Every event -/

/-- An edge event at a source that is not IDLE writes flags alone (R9). -/
theorem edgeEvent_of_busy {t : Tracker} (h : t.state ≠ .idle) :
    t.edgeEvent.state = t.state ∧ t.edgeEvent.holder = t.holder ∧ t.edgeEvent.passSet = t.passSet := by
  unfold Tracker.edgeEvent
  split
  · contradiction
  · exact ⟨rfl, rfl, rfl⟩
  · exact ⟨rfl, rfl, rfl⟩
  · split <;> exact ⟨rfl, rfl, rfl⟩

/-- An assert event changes nothing but an IDLE source (R10). -/
theorem assertEvent_of_busy {t : Tracker} (h : t.state ≠ .idle) : t.assertEvent = t := by
  unfold Tracker.assertEvent
  split
  · contradiction
  all_goals rfl

theorem risen_of_busy {x : Trigger} {t : Tracker} (h : t.state ≠ .idle) :
    (risen x t).state = t.state ∧ (risen x t).holder = t.holder ∧ (risen x t).passSet = t.passSet := by
  have hl : (t.setLine true).state ≠ .idle := h
  cases x with
  | edge => exact edgeEvent_of_busy hl
  | level =>
    rw [risen, assertEvent_of_busy hl]
    exact ⟨rfl, rfl, rfl⟩

theorem risen_of_idle {x : Trigger} {t : Tracker} (h : t.state = .idle) :
    risen x t = { t with state := .pending, line := true } := by
  cases x <;> simp [risen, Tracker.edgeEvent, Tracker.assertEvent, Tracker.setLine, h]

theorem sameHold_risen (x : Trigger) {t : Tracker} : SameHold t (risen x t) := by
  by_cases h : t.state = .idle
  · rw [risen_of_idle h]
    exact .inr ⟨.inl h, .inr rfl, .inl rfl⟩
  · obtain ⟨hs, hh, -⟩ := risen_of_busy (x := x) h
    exact .inl ⟨hs, hh⟩

theorem sameHold_toIdle {t : Tracker} (h : Resting t) : SameHold t t.toIdle := .inr ⟨h, .inl rfl, .inr rfl⟩

theorem sameHold_deassertEvent {t : Tracker} (h : t.state ≠ .offered) : SameHold t t.deassertEvent := by
  unfold Tracker.deassertEvent
  split
  · exact .refl _
  · next hp => exact sameHold_toIdle (.inr hp)
  · contradiction
  · exact .refl _

theorem sameHold_retrigger {t : Tracker} {x : Trigger} (h : Resting t) : SameHold t (t.retrigger x) := by
  unfold Tracker.retrigger
  split
  · exact sameHold_toIdle h
  · split
    · exact .inr ⟨h, .inr rfl, .inr rfl⟩
    · exact sameHold_toIdle h

theorem pairsMatch_endLeaving (h : PairsMatch s) : PairsMatch (endLeaving m s) :=
  pairsMatch_ite h (endLeaving_tracker m s) (endLeaving_offer m s) (fun k => endLeaving_ctx m k s) rfl

theorem pairsMatch_flushQueue {g : SignalIndex} (h : PairsMatch s) : PairsMatch (flushQueue g s) := by
  unfold flushQueue
  split
  · exact h
  · next hp => exact pairsMatch_setTracker (s := s.setQueue g []) (pairsMatch_setQueue h) (sameHold_toIdle (.inr hp))
  · exact pairsMatch_setQueue h
  · exact pairsMatch_setQueue h

theorem pairsMatch_raiseExpiries {x : Tick} (h : PairsMatch s) : PairsMatch (raiseExpiries x s) := by
  refine pairsMatch_congr h (fun i => .refl _) (fun k => ?_) fun k => ?_
  · rw [raiseExpiries_offer, Option.map_map, raiseOffer_eq]
    rfl
  · rw [raiseExpiries_ctx, List.map_map, raiseEntry_eq]
    rfl

/-- Every event keeps the pairs matched. -/
theorem event_pairsMatch {i : Instr} {b : Bool} (h : Event i s b u) (hs : PairsMatch s) : PairsMatch u := by
  cases h with
  | idle => exact hs
  | notice | settings | raise => exact pairsMatch_stacks hs (by simp) (by simp) (by simp)
  | rise n => exact pairsMatch_setTracker hs (sameHold_risen _)
  | fallEdge n => exact pairsMatch_setTracker hs (.inl ⟨rfl, rfl⟩)
  | fallLevel n _ he ho =>
    refine pairsMatch_setTracker hs ?_
    exact sameHold_deassertEvent (t := (s.tracker (lineSource n)).setLine false) ho
  | fallOffered n _ he ho =>
    refine pairsMatch_setTracker hs ?_
    rcases ho with ho | ⟨ho, hn⟩
    · exact sameHold_toIdle (t := (s.tracker (lineSource n)).setLine false) (.inr ho)
    · have := (hs.1 (lineSource n)).held.2 (.inl ho)
      simp [hn] at this
  | hubReset =>
    refine ⟨fun i => sourceMatch_of_resting ?_ ?_ (fun k => ?_) fun k => ?_, fun k => ?_⟩
    · rw [hubResetState_tracker]
      exact .inl rfl
    · rw [hubResetState_tracker]
      rfl
    · simp [OwnOffer]
    · simp [Stacked, Context.reset]
    · rw [hubResetState_ctx]
      exact List.nodup_nil
  | hubRelease req =>
    refine pairsMatch_congr hs (fun i => ?_) (by simp) (by simp)
    rw [hubReleaseState_tracker]
    exact .inl ⟨rfl, rfl⟩
  | portReset => exact pairsMatch_portResetPresent hs
  | portResetOffline => exact pairsMatch_ite hs (by simp) (by simp) (resetPortRecords_ctx _ s) rfl
  | tick => exact pairsMatch_raiseExpiries hs
  | lapse p o _ ho => exact pairsMatch_lapseOffer hs ho
  | reclaim m src _ he => exact pairsMatch_chargedRecords hs (stacked_iff.2 he)
  | reclaimFence m src _ he => exact pairsMatch_fenceMaster (pairsMatch_chargedRecords hs (stacked_iff.2 he))
  | reclaimLeave m src _ he => exact pairsMatch_endLeaving (pairsMatch_chargedRecords hs (stacked_iff.2 he))
  | take p src via _ hc => exact pairsMatch_takeSource hs hc
  | join => exact pairsMatch_ite hs (by simp) (by simp) (fun k => (notifyOthers_ctx ..).trans (setPortState_ctx _ k _ s)) rfl
  | leaveEmpty => exact pairsMatch_endLeaving hs
  | leaveBusy => exact pairsMatch_ite hs (by simp) (by simp) (fun k => setPortState_ctx _ k _ s) rfl
  | fence => exact pairsMatch_fenceMaster hs
  | unfence => exact pairsMatch_ite hs (by simp) (by simp) (readmit_ctx s _) rfl
  | modes p d _ _ _ hd => exact pairsMatch_ite hs (by simp) (by simp) (setCtx_ctx s _ _) hd.stack
  | setFence =>
    refine pairsMatch_stacks hs (by simp) (by simp) fun k => ?_
    rw [clearMisses_ctx]
    rfl
  | configure src r x =>
    refine pairsMatch_congr hs (fun i => ?_) (by simp) (by simp)
    rw [configureRoute_tracker]
    split <;> exact .inl ⟨rfl, rfl⟩
  | trig src x _ _ _ hr =>
    refine pairsMatch_congr hs (fun i => ?_) (by simp) (by simp)
    rw [retriggered_tracker]
    split
    · next hi => exact sameHold_retrigger (hi ▸ hr)
    · exact .refl _
  | flush => exact pairsMatch_flushQueue hs
  | raiseIdle g x _ hl hi =>
    exact pairsMatch_setTracker (s := s.setQueue g _) (pairsMatch_setQueue hs) (.inr ⟨.inl hi, .inr rfl, .inl rfl⟩)
  | complete p src _ he => exact pairsMatch_completedRecords hs (stacked_iff.2 he)
  | completeLeave p src _ he => exact pairsMatch_endLeaving (pairsMatch_completedRecords hs (stacked_iff.2 he))
  | late => exact pairsMatch_ite hs (by simp) (by simp) (setCtx_ctx s _ _) rfl

theorem pairsMatch_same (h : SameRecords s u) (hs : PairsMatch s) : PairsMatch u :=
  pairsMatch_stacks hs h.tracker h.offer fun k => by rw [h.ctx k]

end

/-- Settles O56. -/
theorem everyStepKeepsOffersAndStacksMatched : Obligations.EveryStepKeepsOffersAndStacksMatched := by
  unfold Obligations.EveryStepKeepsOffersAndStacksMatched
  intro s t hh ho hs h
  refine pairsMatch_iff.1 (step_keeps (P := PairsMatch) (fun _ _ => pairsMatch_same) (fun _ _ => pairsMatch_withdraw)
    (fun _ _ => pairsMatch_withdrawSource) (fun _ _ _ _ => event_pairsMatch) (fun _ => pairsMatch_dispatchPass)
    (pairsMatch_iff.2 ⟨hh, ho, hs⟩) h)

end Sys2Proof.Machine

/-! PROOFS. Miss counts (R122), masters that are away (R37, R41, R160) and the masters that hold offers (R78). -/

namespace Sys2Proof.Machine

open Sys2Proof.Safety

/-- What holds before and after every step: `P` at every stage of one, `Q` once a pass has ended the event or none was
due, also past a withdrawal, and `R` there but for withdrawals. -/
theorem step_settles {P Q R : State → Prop} (hsame : ∀ s t, SameRecords s t → P s ∧ Q s ∧ R s → P t ∧ Q t ∧ R t)
    (hwithdraw : ∀ s m, P s → Q s → P (withdraw m s) ∧ Q (withdraw m s))
    (hsource : ∀ s src, P s → Q s → P (withdrawSource src s) ∧ Q (withdrawSource src s))
    (hevent : ∀ i s b u, Event i s b u → P s → Q s → P u)
    (hquiet : ∀ i s u, Event i s false u → P s → Q s → R s → Q u ∧ R u)
    (hpass : ∀ s, P s → P (dispatchPass s) ∧ Q (dispatchPass s) ∧ R (dispatchPass s)) {s t : State}
    (hs : P s ∧ Q s ∧ R s) (h : step s = .next t) : P t ∧ Q t ∧ R t := by
  obtain ⟨i, s0, t0, h0, ⟨b, s1, u, hw, he, rfl⟩, ht⟩ := step_happens h
  obtain ⟨hp, hq, hr⟩ := hsame s s0 h0 hs
  have hs1 : P s1 ∧ Q s1 := by
    rcases hw with rfl | ⟨-, ⟨m, rfl⟩ | ⟨src, rfl⟩⟩
    · exact ⟨hp, hq⟩
    · exact hwithdraw s0 m hp hq
    · exact hsource s0 src hp hq
  have hu : P u := hevent i s1 b u he hs1.1 hs1.2
  refine hsame _ t ht ?_
  cases b with
  | true => exact hpass u hu
  | false =>
    obtain rfl : s1 = s0 := hw.resolve_right fun h => Bool.false_ne_true h.1
    exact ⟨hu, hquiet i s1 u he hp hq hr⟩

section
variable {s u : State} {m k : Master}

/-! Miss counts (R122) -/

/-- Miss counts kept or cleared, under the same threshold. -/
theorem missesBelow_of (hs : MissesBelowThreshold s)
    (ht : u.settings.fenceThreshold = s.settings.fenceThreshold)
    (hm : ∀ k, (u.ctx k).missCount = (s.ctx k).missCount ∨ (u.ctx k).missCount = 0) : MissesBelowThreshold u := by
  obtain ⟨⟨h1, h7⟩, hlt⟩ := hs
  refine ⟨by rw [ht]; exact ⟨h1, h7⟩, fun k => ?_⟩
  rw [ht]
  rcases hm k with h | h <;> rw [h]
  · exact hlt k
  · exact h1

/-- What holds of the new context and of the others holds of all. -/
theorem ctx_or {f : Context → Prop} {c : Context} (hc : f c) (hk : f (s.ctx k)) : f (if m = k then c else s.ctx k) := by
  split
  · exact hc
  · exact hk

/-- One context replaced, its misses kept or cleared. -/
theorem missesBelow_ite {c : Context} (hs : MissesBelowThreshold s) (ht : u.settings = s.settings)
    (hu : ∀ k, u.ctx k = if m = k then c else s.ctx k)
    (hc : c.missCount = (s.ctx m).missCount ∨ c.missCount = 0) : MissesBelowThreshold u := by
  refine missesBelow_of hs (by rw [ht]) fun k => ?_
  rw [hu k]
  split
  · next h => exact h ▸ hc
  · exact .inl rfl

/-- Every event keeps miss counts below the threshold. -/
theorem event_missesBelow {i : Instr} {b : Bool} (h : Event i s b u) (hs : MissesBelowThreshold s) :
    MissesBelowThreshold u := by
  have hsame (t : State) (ht : t.settings.fenceThreshold = s.settings.fenceThreshold) (hc : ∀ k, t.ctx k = s.ctx k) :
      MissesBelowThreshold t := missesBelow_of hs ht fun k => .inl (by rw [hc k])
  cases h with
  | idle => exact hs
  | notice | rise | fallEdge | fallLevel | fallOffered | lapse | configure | trig | raise | raiseIdle =>
    exact hsame _ rfl fun _ => rfl
  | hubRelease => exact hsame _ (by simp) (by simp)
  | flush => exact hsame _ (by simp) (by simp)
  | settings h _ hf => exact hsame _ hf fun _ => rfl
  | hubReset =>
    have ht : (hubResetState s).settings.fenceThreshold = Config.fenceThresholdReset := rfl
    refine ⟨by rw [ht]; decide, fun k => ?_⟩
    rw [ht, hubResetState_ctx]
    decide
  | setFence h _ h1 h7 =>
    refine ⟨⟨h1, h7⟩, fun k => ?_⟩
    rw [clearMisses_ctx]
    exact h1
  | portReset => exact missesBelow_ite hs (by simp) (portResetPresent_ctx _ s) (.inr rfl)
  | portResetOffline => exact missesBelow_ite hs (by simp) (resetPortRecords_ctx _ s) (.inr rfl)
  | tick =>
    refine missesBelow_of hs (by simp) fun k => ?_
    rw [raiseExpiries_ctx]
    exact .inl rfl
  | reclaim m src _ he hm =>
    obtain ⟨h17, hlt⟩ := hs
    refine ⟨by rw [chargedRecords_settings]; exact h17, fun k => ?_⟩
    rw [chargedRecords_settings, chargedRecords_ctx]
    have := hlt m
    exact ctx_or (f := fun c => c.missCount < s.settings.fenceThreshold) (by dsimp only; omega) (hlt k)
  | reclaimFence m src =>
    refine missesBelow_of hs (by simp) fun k => ?_
    rw [fenceMaster_ctx, chargedRecords_ctx, chargedRecords_ctx]
    by_cases hk : m = k <;> simp [hk]
  | reclaimLeave m src =>
    refine missesBelow_of hs (by simp) fun k => ?_
    rw [endLeaving_ctx, chargedRecords_ctx, chargedRecords_ctx]
    by_cases hk : m = k <;> simp [hk]
  | take => exact missesBelow_ite hs (by simp) (takeSource_ctx s _ _ _) (.inl rfl)
  | join => exact missesBelow_ite hs (by simp) (fun k => (notifyOthers_ctx ..).trans (setPortState_ctx _ k _ s)) (.inl rfl)
  | leaveEmpty => exact missesBelow_ite hs (by simp) (fun k => endLeaving_ctx _ k s) (.inr rfl)
  | leaveBusy => exact missesBelow_ite hs (by simp) (fun k => setPortState_ctx _ k _ s) (.inl rfl)
  | fence => exact missesBelow_ite hs (by simp) (fenceMaster_ctx _ s) (.inr rfl)
  | unfence => exact missesBelow_ite hs (by simp) (readmit_ctx s _) (.inl rfl)
  | modes p d _ _ _ hd => exact missesBelow_ite hs (by simp) (setCtx_ctx s _ _) (.inl hd.missCount)
  | complete => exact missesBelow_ite hs (by simp) (completedRecords_ctx _ _ s) (.inr rfl)
  | completeLeave p src =>
    refine missesBelow_of hs (by simp) fun k => ?_
    rw [endLeaving_ctx, completedRecords_ctx, completedRecords_ctx]
    by_cases hk : p = k <;> simp [hk]
  | late => exact missesBelow_ite hs (by simp) (setCtx_ctx s _ _) (.inl rfl)

theorem step_missesBelow (hs : MissesBelowThreshold s) (h : step s = .next u) : MissesBelowThreshold u :=
  step_keeps (fun s t h hs => missesBelow_of hs (by rw [h.settings]) fun k => .inl (by rw [h.ctx k]))
    (fun s m hs => missesBelow_of hs (by simp) (by simp)) (fun s src hs => missesBelow_of hs (by simp) (by simp))
    (fun _ _ _ _ => event_missesBelow) (fun s hs => missesBelow_of hs (by simp) (by simp)) hs h

/-! Masters that are away (R37, R41, R160) -/

/-- An OFFLINE or FENCED master has no entries and no misses, an OFFLINE one no notices and no reclaimed sources. -/
structure AwayClear (c : Context) (q : Port) : Prop where
  stack   : c.portState = .offline ∨ c.portState = .fenced → c.stack = [] ∧ c.missCount = 0
  offline : c.portState = .offline → q.notices = [] ∧ q.noticeOverflow = false ∧ c.reclaimed = []

/-- Every master that is away is clear. -/
def AwayMastersClear (s : State) : Prop := ∀ m, AwayClear (s.ctx m) (s.port m)

theorem awayMastersClear_iff : AwayMastersClear s ↔ AwayStackEmpty s ∧ OfflineCleared s :=
  ⟨fun h => ⟨fun m => (h m).stack, fun m => (h m).offline⟩, fun h m => ⟨h.1 m, h.2 m⟩⟩

/-- A member is not away. -/
theorem awayClear_of_member {c : Context} {q : Port} (h : c.portState = .online ∨ c.portState = .leaving) :
    AwayClear c q := by
  constructor <;> intro hp <;> rcases h with h | h <;> simp [h] at hp

theorem AwayClear.member {c : Context} {q : Port} (h : AwayClear c q) (hs : c.stack ≠ []) :
    c.portState = .online ∨ c.portState = .leaving := by
  by_contra hn
  refine hs (h.stack ?_).1
  cases hp : c.portState <;> simp_all

/-- The same port state, stack, misses and reclaimed sources, at a port with the same notices. -/
theorem AwayClear.congr {c d : Context} {q r : Port} (h : AwayClear c q) (hp : d.portState = c.portState)
    (hs : c.stack = [] → d.stack = []) (hm : d.missCount = c.missCount ∨ d.missCount = 0)
    (hr : c.reclaimed = [] → d.reclaimed = [])
    (hn : d.portState = .offline → (r.notices = q.notices ∧ r.noticeOverflow = q.noticeOverflow) ∨
      (r.notices = [] ∧ r.noticeOverflow = false)) : AwayClear d r where
  stack ha := by
    obtain ⟨hst, hmc⟩ := h.stack (hp ▸ ha)
    exact ⟨hs hst, hm.elim (fun e => e.trans hmc) id⟩
  offline ho := by
    obtain ⟨h1, h2, h3⟩ := h.offline (hp ▸ ho)
    rcases hn ho with ⟨e1, e2⟩ | ⟨e1, e2⟩
    · exact ⟨e1.trans h1, e2.trans h2, hr h3⟩
    · exact ⟨e1, e2, hr h3⟩

/-- Contexts and ports as they were. -/
theorem awayClear_same (hs : AwayMastersClear s) (hc : u.ctx k = s.ctx k) (hq : u.port k = s.port k) :
    AwayClear (u.ctx k) (u.port k) := by
  rw [hc, hq]
  exact hs k

/-- An update of one context. -/
theorem awayMastersClear_ctx {c : Context} (hs : AwayMastersClear s) (hc : ∀ k, u.ctx k = if m = k then c else s.ctx k)
    (hq : ∀ k, u.port k = s.port k) (hm : AwayClear c (s.port m)) : AwayMastersClear u := fun k => by
  rw [hc k, hq k]
  split
  · next h => exact h ▸ hm
  · exact hs k

/-- A departure announces nothing to an OFFLINE master. -/
theorem announced_offline {n : Notice} (h : Announced m n s u) (hk : k ≠ m) (ho : (s.ctx k).portState = .offline) :
    u.port k = s.port k := by
  rw [h.2 k hk]
  have hin : inheritedNotices s m k = [] := by simp [inheritedNotices, canInherit, State.online, ho]
  have hpres : s.present k = false := by simp [State.present, ho]
  rw [hin, hpres]
  rfl

/-- A departure leaves the others clear, when it clears the master that goes. -/
theorem awayMastersClear_departed {n : Notice} (hs : AwayMastersClear s) (h : Announced m n s u)
    (hc : ∀ k, m ≠ k → u.ctx k = s.ctx k) (hm : AwayClear (u.ctx m) (u.port m)) : AwayMastersClear u := fun k => by
  by_cases hk : m = k
  · exact hk ▸ hm
  · rw [hc k hk]
    refine (hs k).congr rfl id (.inl rfl) id fun ho => .inl ?_
    rw [announced_offline h (Ne.symm hk) ho]
    exact ⟨rfl, rfl⟩

theorem endLeaving_announced : Announced m (.left m) s (endLeaving m s) := by
  obtain ⟨-, -, -, h, -⟩ := leavingEnded_endLeaving m s
  exact h

theorem fenceMaster_announced (hp : s.present m = true) : Announced m (.fenced m) s (fenceMaster m s) := by
  obtain ⟨-, -, -, -, -, -, -, h, -⟩ := fenced_fenceMaster m s hp
  exact h

theorem present_of_member (h : (s.ctx m).portState = .online ∨ (s.ctx m).portState = .leaving) :
    s.present m = true := by rcases h with h | h <;> simp [State.present, h]

theorem awayMastersClear_endLeaving (hs : AwayMastersClear s) (h : (s.ctx m).stack = []) :
    AwayMastersClear (endLeaving m s) := by
  refine awayMastersClear_departed hs endLeaving_announced (fun k hk => by rw [endLeaving_ctx, if_neg hk]) ?_
  rw [endLeaving_ctx, if_pos rfl, endLeaving_port_self]
  exact ⟨fun _ => ⟨h, rfl⟩, fun _ => ⟨rfl, rfl, rfl⟩⟩

theorem awayMastersClear_fenceMaster (hs : AwayMastersClear s)
    (h : (s.ctx m).portState = .online ∨ (s.ctx m).portState = .leaving) : AwayMastersClear (fenceMaster m s) := by
  refine awayMastersClear_departed hs (fenceMaster_announced (present_of_member h))
    (fun k hk => by rw [fenceMaster_ctx, if_neg hk]) ?_
  rw [fenceMaster_ctx, if_pos rfl]
  exact ⟨fun _ => ⟨rfl, rfl⟩, nofun⟩

/-- The stack of a master that is taken from, or taken for, stays that of a member. -/
theorem awayMastersClear_member {c : Context} {f : Port → Port} (hs : AwayMastersClear s)
    (hp : c.portState = .online ∨ c.portState = .leaving) (hc : ∀ k, u.ctx k = if m = k then c else s.ctx k)
    (hq : ∀ k, u.port k = s.port k ∨ (m = k ∧ u.port k = f (s.port k))) : AwayMastersClear u := fun k => by
  rw [hc k]
  by_cases hk : m = k
  · rw [if_pos hk]
    exact awayClear_of_member hp
  · rw [if_neg hk, (hq k).resolve_right fun h => hk h.1]
    exact hs k

theorem awayMastersClear_chargedRecords {src : Source} (hs : AwayMastersClear s)
    (hp : (s.ctx m).portState = .online ∨ (s.ctx m).portState = .leaving) :
    AwayMastersClear (chargedRecords m src s) := by
  refine awayMastersClear_member (m := m) (f := noticedPort (.reclaimed src true)) hs (by exact hp)
    (chargedRecords_ctx m src s) fun k => ?_
  rw [chargedRecords_port]
  split
  · next h => exact .inr ⟨h.1, by rw [h.1]⟩
  · exact .inl rfl

theorem awayMastersClear_completedRecords {src : Source} (hs : AwayMastersClear s)
    (hp : (s.ctx m).portState = .online ∨ (s.ctx m).portState = .leaving) :
    AwayMastersClear (completedRecords m src s) :=
  awayMastersClear_member (m := m) (f := id) hs (by exact hp) (completedRecords_ctx m src s)
    fun k => .inl (completedRecords_port m src s k)

/-- A master takes for itself while ONLINE (R78, R90). -/
theorem online_of_candidate {p : Master} {src : Source} (hs : OffersOnline s) (hc : PollCandidate s p src) :
    (s.ctx p).portState = .online := by
  rcases hc with hc | hc
  · obtain ⟨o, ho, -⟩ := ownOffer_iff.1 hc
    exact (hs p (by simp [ho])).1
  · obtain ⟨-, -, -, h, -⟩ := hc
    exact h

theorem member_of_entry {src : Source} (hs : AwayMastersClear s) (he : ∃ e ∈ (s.ctx m).stack, e.source = src) :
    (s.ctx m).portState = .online ∨ (s.ctx m).portState = .leaving := by
  obtain ⟨e, he, -⟩ := he
  exact (hs m).member (List.ne_nil_of_mem he)

theorem chargedRecords_portState {src : Source} :
    ((chargedRecords m src s).ctx m).portState = (s.ctx m).portState := by rw [chargedRecords_ctx, if_pos rfl]

theorem removed_stack_empty {src : Source} (h : removeEntry src (s.ctx m).stack = []) :
    ((chargedRecords m src s).ctx m).stack = [] ∧ ((completedRecords m src s).ctx m).stack = [] := by
  rw [chargedRecords_ctx, completedRecords_ctx, if_pos rfl, if_pos rfl]
  exact ⟨h, h⟩

/-- Every event keeps the masters that are away clear. -/
theorem event_awayMastersClear {i : Instr} {b : Bool} (h : Event i s b u) (hs : AwayMastersClear s)
    (ho : OffersOnline s) : AwayMastersClear u := by
  cases h with
  | idle => exact hs
  | rise | fallEdge | fallLevel | fallOffered | lapse | configure | trig | raise | raiseIdle | settings =>
    exact fun k => awayClear_same hs rfl rfl
  | hubRelease => exact fun k => awayClear_same hs (by simp) (by rw [hubReleaseState_port])
  | flush => exact fun k => awayClear_same hs (by simp) (by simp)
  | notice p =>
    intro k
    rw [popNotice_ctx, popNotice_port]
    split
    · next hk =>
      subst hk
      refine (hs p).congr rfl id (.inl rfl) id fun hp => .inr ⟨?_, rfl⟩
      simp [((hs p).offline hp).1]
    · exact hs k
  | hubReset =>
    intro k
    rw [hubResetState_ctx, hubResetState_port]
    exact ⟨fun _ => ⟨rfl, rfl⟩, fun _ => ⟨rfl, rfl, rfl⟩⟩
  | portReset p =>
    refine awayMastersClear_departed hs (portResetPresent_announced p s)
      (fun k hk => by rw [portResetPresent_ctx, if_neg hk]) ?_
    rw [portResetPresent_ctx, if_pos rfl, portResetPresent_port_self]
    exact ⟨fun _ => ⟨rfl, rfl⟩, fun _ => ⟨rfl, rfl, rfl⟩⟩
  | portResetOffline p =>
    intro k
    rw [resetPortRecords_ctx, resetPortRecords_port]
    split
    · exact (hs p).congr rfl id (.inr rfl) (fun _ => rfl) fun _ => .inr ⟨rfl, rfl⟩
    · exact hs k
  | tick x =>
    intro k
    rw [raiseExpiries_ctx, raiseExpiries_port]
    exact (hs k).congr rfl (fun h => by simp [h]) (.inl rfl) id fun _ => .inl ⟨rfl, rfl⟩
  | setFence =>
    intro k
    rw [clearMisses_ctx, clearMisses_port]
    exact (hs k).congr rfl id (.inr rfl) id fun _ => .inl ⟨rfl, rfl⟩
  | reclaim m src _ he => exact awayMastersClear_chargedRecords hs (member_of_entry hs he)
  | reclaimFence m src _ he =>
    have hp := member_of_entry hs he
    refine awayMastersClear_fenceMaster (awayMastersClear_chargedRecords hs hp) ?_
    rw [chargedRecords_portState]
    exact hp
  | reclaimLeave m src _ he hr =>
    exact awayMastersClear_endLeaving (awayMastersClear_chargedRecords hs (member_of_entry hs he))
      (removed_stack_empty hr).1
  | take p src via _ hc =>
    have hp : (s.ctx p).portState = .online := online_of_candidate ho hc
    exact awayMastersClear_member (m := p) (f := id) hs (.inl (by exact hp)) (takeSource_ctx s p src via)
      fun k => .inl (takeSource_port p src via s k)
  | join p _ hi hp =>
    intro k
    rw [notifyOthers_ctx, setPortState_ctx]
    by_cases hk : p = k
    · rw [if_pos hk]
      exact awayClear_of_member (.inl rfl)
    · rw [if_neg hk]
      refine (hs k).congr rfl id (.inl rfl) id fun hoff => .inl ?_
      have hpres : (setPortState p .online s).present k = false := by simp [State.present, setPortState_ctx, hk, hoff]
      rw [notifyOthers_port, if_neg (by simp [hpres]), setPortState_port]
      exact ⟨rfl, rfl⟩
  | leaveEmpty p _ hst => exact awayMastersClear_endLeaving hs hst
  | leaveBusy p =>
    exact awayMastersClear_ctx hs (fun k => setPortState_ctx p k _ s) (by simp) (awayClear_of_member (.inr rfl))
  | fence m _ hp => exact awayMastersClear_fenceMaster hs hp
  | unfence m _ hp =>
    intro k
    rw [readmit_ctx, readmit_port]
    split
    · exact ⟨fun _ => (hs m).stack (.inr hp), fun _ => ⟨rfl, rfl, rfl⟩⟩
    · exact hs k
  | modes p d _ _ _ hd =>
    refine awayMastersClear_ctx hs (setCtx_ctx s p d) (by simp) ?_
    exact (hs p).congr hd.portState (fun h => hd.stack.trans h) (.inl hd.missCount) (fun h => hd.reclaimed.trans h)
      fun _ => .inl ⟨rfl, rfl⟩
  | complete p src _ he => exact awayMastersClear_completedRecords hs (member_of_entry hs he)
  | completeLeave p src _ he hr =>
    exact awayMastersClear_endLeaving (awayMastersClear_completedRecords hs (member_of_entry hs he))
      (removed_stack_empty hr).2
  | late p src =>
    refine awayMastersClear_ctx hs (setCtx_ctx s p _) (by simp) ?_
    exact (hs p).congr rfl id (.inl rfl) (fun h => by simp [h]) fun _ => .inl ⟨rfl, rfl⟩

/-! Offers stand with ONLINE masters in LINE mode (R78) -/

theorem offersOnline_of (hs : OffersOnline s) (ho : ∀ k, (u.offer k).isSome = true → (s.offer k).isSome = true)
    (hp : ∀ k, (u.ctx k).portState = (s.ctx k).portState)
    (hl : ∀ k, (u.offer k).isSome = true → (u.ctx k).lineMode = (s.ctx k).lineMode) : OffersOnline u := fun k hk => by
  obtain ⟨h1, h2⟩ := hs k (ho k hk)
  exact ⟨(hp k).trans h1, (hl k hk).trans h2⟩

/-- Contexts as they were, and no offer more. -/
theorem offersOnline_ctx (hs : OffersOnline s) (ho : ∀ k, (u.offer k).isSome = true → (s.offer k).isSome = true)
    (hc : ∀ k, u.ctx k = s.ctx k) : OffersOnline u :=
  offersOnline_of hs ho (fun k => by rw [hc k]) fun k _ => by rw [hc k]

theorem offersOnline_withdraw (hs : OffersOnline s) : OffersOnline (withdraw m s) := by
  refine offersOnline_ctx hs (fun k => ?_) (by simp)
  rw [withdraw_offer]
  split
  · exact nofun
  · exact id

theorem withdrawSource_offer_isSome {src : Source} (h : ((withdrawSource src s).offer k).isSome = true) :
    (s.offer k).isSome = true := by
  unfold withdrawSource at h
  split at h
  · rw [setOffer_offer] at h
    split at h
    · cases h
    · exact h
  · exact h

theorem offersOnline_withdrawSource {src : Source} (hs : OffersOnline s) : OffersOnline (withdrawSource src s) :=
  offersOnline_ctx hs (fun _ => withdrawSource_offer_isSome) (by simp)

/-- A qualifying offer stands with an ONLINE master in LINE mode (R64, R78). -/
theorem offersOnline_of_qualify (hs : OffersQualify s) : OffersOnline s := fun k hk => by
  obtain ⟨o, ho⟩ := Option.isSome_iff_exists.1 hk
  obtain ⟨hl, he⟩ := eligible_iff.1 (hs k o ho).2
  obtain ⟨-, hp, -⟩ := eligibleToPoll_iff.1 he
  exact ⟨hp, hl⟩

/-- An event that ends without a pass leaves offers with ONLINE masters in LINE mode. -/
theorem event_offersOnline {i : Instr} {b : Bool} (h : Event i s b u) (hb : b = false) (hs : OffersOnline s) :
    OffersOnline u := by
  cases h with
  | idle => exact hs
  | fallOffered | portReset | lapse | reclaim | reclaimFence | reclaimLeave | take | join | leaveEmpty | leaveBusy
  | fence | unfence | raiseIdle | complete | completeLeave => cases hb
  | notice | rise | fallEdge | fallLevel | configure | trig | raise | settings =>
    exact offersOnline_ctx hs (fun _ => id) fun _ => rfl
  | hubRelease => exact offersOnline_ctx hs (by simp) (by simp)
  | flush => exact offersOnline_ctx hs (by simp) (by simp)
  | hubReset =>
    intro k
    simp
  | portResetOffline p _ hi hp =>
    refine offersOnline_of hs (by simp) (fun k => ?_) fun k hk => ?_
    · rw [resetPortRecords_ctx]
      exact ctx_ite Context.portState rfl
    · have hk' : p ≠ k := by
        rintro rfl
        have := (hs p hk).1
        simp [hp] at this
      rw [resetPortRecords_ctx, if_neg hk']
  | tick =>
    refine offersOnline_of hs (fun k hk => ?_) (fun k => ?_) fun k _ => ?_
    · rw [raiseExpiries_offer, Option.isSome_map] at hk
      exact hk
    · rw [raiseExpiries_ctx]
    · rw [raiseExpiries_ctx]
  | setFence =>
    refine offersOnline_of hs (by simp) (fun k => ?_) fun k _ => ?_
    · rw [clearMisses_ctx]
      rfl
    · rw [clearMisses_ctx]
      rfl
  | modes p d _ _ _ hd hn =>
    refine offersOnline_of hs (by simp) (fun k => ?_) fun k hk => ?_
    · rw [setCtx_ctx]
      exact ctx_ite Context.portState hd.portState
    · rw [setCtx_ctx]
      split
      · next hp =>
        subst hp
        obtain ⟨o, ho⟩ := Option.isSome_iff_exists.1 hk
        exact ((hn hb).offer o ho).1
      · rfl
  | late p =>
    refine offersOnline_of hs (by simp) (fun k => ?_) fun k _ => ?_
    · rw [setCtx_ctx]
      exact ctx_ite Context.portState rfl
    · rw [setCtx_ctx]
      exact ctx_ite Context.lineMode rfl

theorem awayMastersClear_frame (hs : AwayMastersClear s) (hc : ∀ k, u.ctx k = s.ctx k) (hq : ∀ k, u.port k = s.port k) :
    AwayMastersClear u := fun k => awayClear_same hs (hc k) (hq k)

theorem awayMastersClear_same (h : SameRecords s u) (hs : AwayMastersClear s) : AwayMastersClear u := fun k => by
  rw [h.ctx k]
  exact (hs k).congr rfl id (.inl rfl) id fun _ => .inl (h.notices k)

theorem step_awayMastersClear (hs : AwayMastersClear s) (ho : OffersOnline s) (h : step s = .next u) :
    AwayMastersClear u ∧ OffersOnline u := by
  have hpass (s : State) : OffersOnline (dispatchPass s) := offersOnline_of_qualify (passLeavesOnlyQualifyingOffers s)
  obtain ⟨h1, h2, -⟩ := step_settles (R := fun _ => True)
    (fun s t h hs => ⟨awayMastersClear_same h hs.1,
      offersOnline_ctx hs.2.1 (fun k hk => by rwa [h.offer k] at hk) h.ctx, trivial⟩)
    (fun s m hs ho => ⟨awayMastersClear_frame hs (by simp) (by simp), offersOnline_withdraw ho⟩)
    (fun s src hs ho => ⟨awayMastersClear_frame hs (by simp) (by simp), offersOnline_withdrawSource ho⟩)
    (fun _ _ _ _ => event_awayMastersClear) (fun _ _ _ h _ ho _ => ⟨event_offersOnline h rfl ho, trivial⟩)
    (fun s hs => ⟨awayMastersClear_frame hs (dispatchPass_ctx s) (dispatchPass_port s), hpass s, trivial⟩)
    ⟨hs, ho, trivial⟩ h
  exact ⟨h1, h2⟩

end

/-- Settles O59. -/
theorem everyStepKeepsAwayMastersCleared : Obligations.EveryStepKeepsAwayMastersCleared := by
  unfold Obligations.EveryStepKeepsAwayMastersCleared
  refine fun s t => ⟨step_missesBelow, fun ha hoff ho h => ?_⟩
  obtain ⟨hclear, honline⟩ := step_awayMastersClear (awayMastersClear_iff.2 ⟨ha, hoff⟩) ho h
  obtain ⟨hst, hcl⟩ := awayMastersClear_iff.1 hclear
  exact ⟨hst, hcl, honline⟩

end Sys2Proof.Machine

/-! PROOFS. Flags, pass sets and queues of trackers (R8, R16, R132), and routes (R18, R27, R29). -/

namespace Sys2Proof.Machine

open Sys2Proof.Safety

/-! One tracker -/

/-- The flags of a tracker suit its state, `e` telling an edge line source, and a signal source with the queue `q` is
IDLE exactly when it is empty (R8, R16, R132). -/
structure TrackerFit (e : Bool) (q : Option (List Signal)) (t : Tracker) : Prop where
  again  : t.again = true → t.state = .inService
  merged : t.state = .inService → t.merged = true → t.again = true
  edge   : e = false → t.merged = false ∧ t.again = false
  idle   : t.state = .idle → t.merged = false ∧ t.passSet = 0
  queue  : ∀ l, q = some l → (t.state = .idle ↔ l = [])

section
variable {e : Bool} {q : Option (List Signal)} {t : Tracker}

theorem TrackerFit.again_false (h : TrackerFit e q t) (hs : t.state ≠ .inService) : t.again = false :=
  Bool.eq_false_iff.2 (mt h.again hs)

/-- A PENDING tracker without the again flag. -/
theorem trackerFit_pending (hs : t.state = .pending) (ha : t.again = false) (he : e = false → t.merged = false)
    (hq : ∀ l, q = some l → l ≠ []) : TrackerFit e q t where
  again h := by simp [ha] at h
  merged h := by simp [hs] at h
  edge h := ⟨he h, ha⟩
  idle h := by simp [hs] at h
  queue l h := by simp [hs, hq l h]

theorem TrackerFit.queue_ne_nil (h : TrackerFit e q t) (hs : t.state ≠ .idle) : ∀ l, q = some l → l ≠ [] :=
  fun l hl => mt (h.queue l hl).2 hs

theorem trackerFit_toIdle (hq : ∀ l, q = some l → l = []) : TrackerFit e q t.toIdle where
  again h := by cases h
  merged h := by cases h
  edge _ := ⟨rfl, rfl⟩
  idle _ := ⟨rfl, rfl⟩
  queue l h := by simp [Tracker.toIdle, hq l h]

theorem trackerFit_toPending (h : TrackerFit e q t) (hs : t.state = .offered) : TrackerFit e q t.toPending :=
  trackerFit_pending rfl (h.again_false (by simp [hs])) (fun he => (h.edge he).1) (h.queue_ne_nil (by simp [hs]))

theorem trackerFit_toOffered (h : TrackerFit e q t) (hs : t.state = .pending) (m : Master) :
    TrackerFit e q (t.toOffered m) where
  again ha := absurd ((h.again_false (by simp [hs])).symm.trans ha) (by simp)
  merged h := by cases h
  edge := h.edge
  idle h := by cases h
  queue l hl := by simp [Tracker.toOffered, h.queue_ne_nil (by simp [hs]) l hl]

theorem trackerFit_passSet (h : TrackerFit e q t) (x : MasterSet) (hx : t.state ≠ .idle ∨ x = t.passSet ∨ x = 0) :
    TrackerFit e q { t with passSet := x } where
  again := h.again
  merged := h.merged
  edge := h.edge
  idle hi := by
    obtain ⟨hm, hp⟩ := h.idle hi
    refine ⟨hm, ?_⟩
    rcases hx with hx | rfl | rfl
    · exact absurd hi hx
    · exact hp
    · rfl
  queue := h.queue

theorem trackerFit_addPass (h : TrackerFit e q t) (hs : t.state = .pending) (m : Master) :
    TrackerFit e q (t.addPass m) := trackerFit_passSet h _ (.inl (by simp [hs]))

theorem trackerFit_setLine (h : TrackerFit e q t) (b : Bool) : TrackerFit e q (t.setLine b) :=
  ⟨h.again, h.merged, h.edge, h.idle, h.queue⟩

/-- The rest of an interrupted source: an edge source folds again into merged (R15). -/
theorem trackerFit_interrupt (h : TrackerFit e q t) (hs : t.state = .inService) : TrackerFit e q (t.interrupt e) := by
  have hq := h.queue_ne_nil (by simp [hs])
  unfold Tracker.interrupt
  split
  · next he =>
    simp only [Bool.and_eq_true] at he
    exact trackerFit_pending rfl rfl (by simp [he.1]) hq
  · next he =>
    refine trackerFit_pending rfl ?_ (fun he => (h.edge he).1) hq
    change t.again = false
    cases e
    · exact (h.edge rfl).2
    · simpa using he

theorem trackerFit_completeLine {x : Trigger} (h : TrackerFit e none t) (hx : x = .level → e = false) :
    TrackerFit e none (t.completeLine x) := by
  have hq : ∀ l : List Signal, none = some l → l ≠ [] := nofun
  unfold Tracker.completeLine
  cases x <;> dsimp only
  · split
    · exact trackerFit_pending rfl rfl (fun he => (h.edge he).1) hq
    · exact trackerFit_toIdle nofun
  · obtain ⟨hm, ha⟩ := h.edge (hx rfl)
    split
    · exact trackerFit_pending rfl ha (fun _ => hm) hq
    · exact trackerFit_toIdle nofun

theorem trackerFit_completeSignal (h : TrackerFit false q t) (l : List Signal) :
    TrackerFit false (some l) (t.completeSignal l) := by
  obtain ⟨hm, ha⟩ := h.edge rfl
  unfold Tracker.completeSignal
  cases l with
  | nil => exact trackerFit_toIdle (by simp)
  | cons a l => exact trackerFit_pending rfl ha (fun _ => hm) (by simp)

theorem trackerFit_mergedClear (h : TrackerFit e q t) : TrackerFit e q { t with merged := false } :=
  ⟨h.again, nofun, fun he => ⟨rfl, (h.edge he).2⟩, fun hi => ⟨rfl, (h.idle hi).2⟩, h.queue⟩

/-- The tracker of a source that is taken (R93). -/
theorem trackerFit_taken (h : TrackerFit e q t) (hs : t.state ≠ .idle) (p : Master) :
    TrackerFit e q { t with state := .inService, holder := some p, merged := false } where
  again _ := rfl
  merged _ hm := by cases hm
  edge he := ⟨rfl, (h.edge he).2⟩
  idle hi := by cases hi
  queue l hl := by simp [h.queue_ne_nil hs l hl]

theorem trackerFit_retrigger {x : Trigger} : TrackerFit e none (t.retrigger x) := by
  unfold Tracker.retrigger
  split
  · exact trackerFit_toIdle nofun
  · split
    · exact trackerFit_pending rfl rfl (fun _ => rfl) nofun
    · exact trackerFit_toIdle nofun

/-- An edge event (R9). -/
theorem trackerFit_edgeEvent (h : TrackerFit true none t) : TrackerFit true none t.edgeEvent := by
  unfold Tracker.edgeEvent
  split
  · next hs => exact trackerFit_pending rfl (h.again_false (by simp [hs])) nofun nofun
  · next hs => exact trackerFit_pending hs (h.again_false (by simp [hs])) nofun nofun
  · next hs =>
    exact ⟨h.again, fun hi => by simp [hs] at hi, nofun, fun hi => by simp [hs] at hi, nofun⟩
  · next hs =>
    split
    · next ha => exact ⟨h.again, fun _ _ => ha, nofun, fun hi => by simp [hs] at hi, nofun⟩
    · exact ⟨fun _ => hs, fun _ _ => rfl, nofun, fun hi => by simp [hs] at hi, nofun⟩

/-- An assert event (R10). -/
theorem trackerFit_assertEvent (h : TrackerFit e none t) : TrackerFit e none t.assertEvent := by
  unfold Tracker.assertEvent
  split
  · next hs =>
    exact trackerFit_pending rfl (h.again_false (by simp [hs])) (fun he => (h.edge he).1) nofun
  all_goals exact h

theorem trackerFit_risen {x : Trigger} (h : TrackerFit e none t) (hx : x = .edge → e = true) :
    TrackerFit e none (risen x t) := by
  have hl := trackerFit_setLine h true
  cases x
  · obtain rfl := hx rfl
    exact trackerFit_edgeEvent hl
  · exact trackerFit_assertEvent hl

theorem trackerFit_deassertEvent (h : TrackerFit e none t) : TrackerFit e none t.deassertEvent := by
  unfold Tracker.deassertEvent
  split
  · exact h
  · exact trackerFit_toIdle nofun
  · exact trackerFit_toIdle nofun
  · exact h

end

/-! All trackers -/

section
variable (m : Master) (f : Master → Bool) (r : Route)

@[simp] theorem passedRoute_trigger : (passedRoute m f r).trigger = r.trigger := by
  unfold passedRoute
  repeat' split
  all_goals rfl

@[simp] theorem passedRoute_autodone : (passedRoute m f r).autodone = r.autodone := by
  unfold passedRoute
  repeat' split
  all_goals rfl

end

/-- The queue of a source, for a signal source (R131). -/
def queueOf (s : State) (i : Source) : Option (List Signal) := (signalIndex i).map s.queue

/-- Every tracker is fit. -/
def TrackersFit (s : State) : Prop := ∀ i, TrackerFit (edgeLine s i) (queueOf s i) (s.tracker i)

section
variable {s u : State} {i : Source} {m : Master}

theorem edgeLine_eq_false : edgeLine s i = false ↔ (isLineSource i = false ∨ (s.route i).trigger = .level) := by
  cases h : (s.route i).trigger <;> simp [edgeLine, h]

theorem queueOf_signalSource (g : SignalIndex) : queueOf s (signalSource g) = some (s.queue g) := by simp [queueOf]

theorem queueOf_of_line (h : isLineSource i = true) : queueOf s i = none := by
  simp [queueOf, signalIndex_eq_none.2 h]

theorem queueOf_lineSource (n : Line) : queueOf s (lineSource n) = none := queueOf_of_line (by simp)

theorem edgeLine_lineSource {n : Line} (h : (s.route (lineSource n)).trigger = .edge) :
    edgeLine s (lineSource n) = true := by simp [edgeLine, h]

/-- Fit trackers are what R8, R16 and R132 say. -/
theorem trackersFit_iff : TrackersFit s ↔ FlagsRegular s ∧ SignalIdleIffEmpty s := by
  constructor
  · refine fun h => ⟨fun i => ⟨(h i).again, (h i).merged, fun he => (h i).edge (edgeLine_eq_false.2 he), (h i).idle⟩,
      fun g => (h (signalSource g)).queue _ (queueOf_signalSource g)⟩
  · rintro ⟨hf, hq⟩ i
    obtain ⟨ha, hm, he, hi⟩ := hf i
    refine ⟨ha, hm, fun h => he (edgeLine_eq_false.1 h), hi, fun l hl => ?_⟩
    obtain ⟨g, hg, rfl⟩ := Option.map_eq_some_iff.1 hl
    obtain rfl := signalIndex_eq_some.1 hg
    exact hq g

/-- Triggers, queues and trackers as they were, at `i`. -/
theorem trackerFit_congr (h : TrackersFit s) (hr : (u.route i).trigger = (s.route i).trigger)
    (hq : ∀ g, u.queue g = s.queue g) (ht : u.tracker i = s.tracker i) :
    TrackerFit (edgeLine u i) (queueOf u i) (u.tracker i) := by
  have he : edgeLine u i = edgeLine s i := by simp [edgeLine, hr]
  have hq' : queueOf u i = queueOf s i := by rw [queueOf, queueOf, funext hq]
  rw [he, hq', ht]
  exact h i

theorem trackersFit_congr (h : TrackersFit s) (hr : ∀ i, (u.route i).trigger = (s.route i).trigger)
    (hq : ∀ g, u.queue g = s.queue g) (ht : ∀ i, u.tracker i = s.tracker i) : TrackersFit u :=
  fun i => trackerFit_congr h (hr i) hq (ht i)

/-- Triggers and queues as they were, every tracker fit in their sense. -/
theorem trackersFit_of (hr : ∀ i, (u.route i).trigger = (s.route i).trigger) (hq : ∀ g, u.queue g = s.queue g)
    (ht : ∀ i, TrackerFit (edgeLine s i) (queueOf s i) (u.tracker i)) : TrackersFit u := fun i => by
  have he : edgeLine u i = edgeLine s i := by simp [edgeLine, hr]
  have hq' : queueOf u i = queueOf s i := by rw [queueOf, queueOf, funext hq]
  rw [he, hq']
  exact ht i

/-- An update of one tracker. -/
theorem trackersFit_setTracker {x : Tracker} (h : TrackersFit s) (hx : TrackerFit (edgeLine s i) (queueOf s i) x) :
    TrackersFit (s.setTracker i x) := by
  refine trackersFit_of (s := s) (by simp) (by simp) fun j => ?_
  rw [setTracker_tracker]
  split
  · next hj => exact hj ▸ hx
  · exact h j

theorem trackerFit_withdraw (hp : PairsMatch s) (h : TrackersFit s) :
    TrackerFit (edgeLine s i) (queueOf s i) ((withdraw m s).tracker i) := by
  rw [withdraw_tracker]
  split
  · next ho => exact trackerFit_toPending (h i) (((hp.1 i).offered m).1 ho).1
  · exact h i

theorem trackersFit_withdraw (hp : PairsMatch s) (h : TrackersFit s) : TrackersFit (withdraw m s) :=
  trackersFit_of (by simp) (by simp) fun _ => trackerFit_withdraw hp h

theorem trackersFit_withdrawSource (hp : PairsMatch s) (h : TrackersFit s) : TrackersFit (withdrawSource i s) := by
  by_cases ho : (s.tracker i).state = .offered
  · obtain ⟨m, -, hw⟩ := withdrawSource_eq (hp.1 i) ho
    rw [hw]
    exact trackersFit_withdraw hp h
  · rw [withdrawSource_of_not_offered ho]
    exact h

theorem trackersFit_makeOffer {src : Source} (h : TrackersFit s) (hs : (s.tracker src).state = .pending) :
    TrackersFit (makeOffer src m s) := by
  have hf := makeOffer_frame src m s
  refine trackersFit_of (s := s) (fun i => by rw [hf.route_eq]) hf.queue_eq fun i => ?_
  rw [makeOffer_tracker]
  split
  · next hi => exact trackerFit_toOffered (h i) (hi ▸ hs) m
  · exact h i

/-- A pass keeps trackers fit. -/
theorem trackersFit_dispatchPass (hp : PairsMatch s) (h : TrackersFit s) : TrackersFit (dispatchPass s) := by
  refine (dispatchPass_keeps (P := fun s => PairsMatch s ∧ TrackersFit s)
    (fun s m h => ⟨pairsMatch_withdraw h.1, trackersFit_withdraw h.1 h.2⟩)
    (fun s src h => ⟨pairsMatch_setTracker h.1 (.inl ⟨rfl, rfl⟩),
      trackersFit_setTracker h.2 (trackerFit_passSet (h.2 src) 0 (.inr (.inr rfl)))⟩)
    (fun s src m h hm hoff _ => ?_) ⟨hp, h⟩).2
  have hpend := (offerable_iff.1 hoff).1
  exact ⟨pairsMatch_makeOffer h.1 hm hpend, trackersFit_makeOffer h.2 hpend⟩

theorem trackersFit_lapseOffer {o : Offer} (hp : PairsMatch s) (h : TrackersFit s) (ho : s.offer m = some o) :
    TrackersFit (lapseOffer m o s) := by
  refine trackersFit_of (s := s) (by simp) (by simp) fun i => ?_
  rw [lapseOffer_tracker]
  split
  · next hi =>
    have hown : OwnOffer s m i := ownOffer_iff.2 ⟨o, ho, hi⟩
    exact trackerFit_addPass (trackerFit_toPending (h i) (((hp.1 i).offered m).1 hown).1) rfl m
  · exact h i

/-- The sources of entries interrupted (R15, R46, R49). -/
theorem trackerFit_interrupted (hp : PairsMatch s) (h : TrackersFit s) (hi : Stacked s m i) :
    TrackerFit (edgeLine s i) (queueOf s i) ((s.tracker i).interrupt (edgeLine s i)) :=
  trackerFit_interrupt (h i) (((hp.1 i).stacked m).1 hi).1

theorem stacked_withdraw {k : Master} : Stacked (withdraw k s) m i ↔ Stacked s m i := by
  rw [Stacked, Stacked, withdraw_ctx]

theorem edgeLine_withdraw : edgeLine (withdraw m s) i = edgeLine s i := by simp [edgeLine]

theorem queueOf_withdraw : queueOf (withdraw m s) i = queueOf s i := by
  rw [queueOf, queueOf, funext (fun g => withdraw_queue m s g)]

theorem trackerFit_interrupted_withdraw (hp : PairsMatch s) (h : TrackersFit s) (hi : Stacked s m i) :
    TrackerFit (edgeLine s i) (queueOf s i) (((withdraw m s).tracker i).interrupt (edgeLine s i)) := by
  have := trackerFit_interrupted (pairsMatch_withdraw (m := m) hp) (trackersFit_withdraw hp h) (stacked_withdraw.2 hi)
  rwa [edgeLine_withdraw, queueOf_withdraw] at this

theorem trackersFit_fenceMaster (hp : PairsMatch s) (h : TrackersFit s) : TrackersFit (fenceMaster m s) := by
  refine trackersFit_of (s := s) (fun i => ?_) (by simp) fun i => ?_
  · rw [fenceMaster_route, passedRoute_trigger]
  · rw [fenceMaster_tracker]
    split
    · next hi => exact trackerFit_addPass (trackerFit_interrupted_withdraw hp h hi) (interrupt_state _ _) m
    · exact trackerFit_withdraw hp h

theorem trackersFit_portResetPresent (hp : PairsMatch s) (h : TrackersFit s) :
    TrackersFit (portResetPresent m s) := by
  refine trackersFit_of (s := s) (fun i => ?_) (by simp) fun i => ?_
  · rw [portResetPresent_route, passedRoute_trigger]
  · rw [portResetPresent_tracker]
    split
    · next hi => exact trackerFit_interrupted_withdraw hp h hi
    · exact trackerFit_withdraw hp h

theorem trackersFit_endLeaving (h : TrackersFit s) : TrackersFit (endLeaving m s) := by
  refine trackersFit_congr h (fun i => ?_) (by simp) (by simp)
  rw [endLeaving_route_eq, passedRoute_trigger]

theorem trackersFit_chargedRecords {src : Source} (hp : PairsMatch s) (h : TrackersFit s) (hsrc : Stacked s m src) :
    TrackersFit (chargedRecords m src s) := by
  refine trackersFit_of (s := s) (by simp) (by simp) fun i => ?_
  rw [chargedRecords_tracker]
  split
  · next hi => exact trackerFit_addPass (trackerFit_interrupted hp h (hi ▸ hsrc)) (interrupt_state _ _) m
  · exact h i

/-- The tracker `t` of `src` gone to rest by a completion (R14, R136). -/
def completedTracker (s : State) (src : Source) (t : Tracker) : Tracker :=
  match signalIndex src with
  | some g => t.completeSignal (s.queue g).tail
  | none => t.completeLine (s.route src).trigger

theorem completedTracker_signal (g : SignalIndex) (t : Tracker) :
    completedTracker s (signalSource g) t = t.completeSignal (s.queue g).tail := by
  simp [completedTracker]

theorem completedTracker_line {src : Source} (h : signalIndex src = none) (t : Tracker) :
    completedTracker s src t = t.completeLine (s.route src).trigger := by
  simp [completedTracker, h]

/-- A source gone to rest by a completion, its queue without its head (R14, R136). -/
theorem trackersFit_completed {src : Source} {t : Tracker} (h : TrackersFit s)
    (ht : TrackerFit (edgeLine s src) (queueOf s src) t) (hr : ∀ i, (u.route i).trigger = (s.route i).trigger)
    (hq : ∀ g, u.queue g = if signalIndex src = some g then (s.queue g).tail else s.queue g)
    (hself : u.tracker src = completedTracker s src t)
    (hother : ∀ i, src ≠ i → u.tracker i = s.tracker i) : TrackersFit u := fun i => by
  have he : edgeLine u i = edgeLine s i := by simp [edgeLine, hr]
  rw [he]
  by_cases hi : src = i
  · subst hi
    rw [hself]
    cases hsig : signalIndex src with
    | none =>
      have hline : isLineSource src = true := signalIndex_eq_none.1 hsig
      rw [queueOf_of_line hline, completedTracker_line hsig]
      rw [queueOf_of_line hline] at ht
      exact trackerFit_completeLine ht fun hl => edgeLine_eq_false.2 (.inr hl)
    | some g =>
      obtain rfl := signalIndex_eq_some.1 hsig
      have hedge : edgeLine s (signalSource g) = false := edgeLine_eq_false.2 (.inl (by simp))
      rw [hedge] at ht ⊢
      rw [queueOf_signalSource, hq, if_pos hsig, completedTracker_signal]
      exact trackerFit_completeSignal ht _
  · rw [hother i hi]
    have hq' : queueOf u i = queueOf s i := by
      cases hg : signalIndex i with
      | none => simp [queueOf, hg]
      | some g =>
        have hne : ¬ signalIndex src = some g := by
          intro hs
          exact hi ((signalIndex_eq_some.1 hs).trans (signalIndex_eq_some.1 hg).symm)
        simp [queueOf, hg, hq, hne]
    rw [hq']
    exact h i

theorem trackersFit_completedRecords {src : Source} (h : TrackersFit s) : TrackersFit (completedRecords m src s) :=
  trackersFit_completed h (h src) (by simp) (completedRecords_queue m src s)
    (by rw [completedRecords_tracker, if_pos rfl]; rfl) fun i hi => by rw [completedRecords_tracker, if_neg hi]

theorem trackersFit_takeSource {p : Master} {src : Source} {via : Via} (hp : PairsMatch s) (h : TrackersFit s)
    (hc : PollCandidate s p src) : TrackersFit (takeSource p src via s) := by
  have hr (i : Source) : ((takeSource p src via s).route i).trigger = (s.route i).trigger := by
    rw [takeSource_route]
    split
    · next hi => rw [hi]
    · rfl
  have hother (i : Source) (hi : src ≠ i) : (takeSource p src via s).tracker i = s.tracker i := by
    rw [takeSource_tracker, if_neg hi]
  cases ha : (s.route src).autodone with
  | true =>
    refine trackersFit_completed h (trackerFit_mergedClear (h src)) hr (fun g => ?_) ?_ hother
    · simp [takeSource_queue, ha]
    · rw [takeSource_tracker, if_pos rfl, if_pos ha]
      rfl
  | false =>
    refine trackersFit_of (s := s) hr (fun g => by simp [takeSource_queue, ha]) fun i => ?_
    by_cases hi : src = i
    · subst hi
      have hne : (s.tracker src).state ≠ .idle := by
        rcases hc with hc | hc
        · simp [(((hp.1 src).offered p).1 hc).1]
        · simp [hc.1]
      rw [takeSource_tracker, if_pos rfl, ha, if_neg (by simp)]
      exact trackerFit_taken (h src) hne p
    · rw [hother i hi]
      exact h i

/-- A queue and the tracker of its source replaced (R134, R139). -/
theorem trackersFit_setQueue {g : SignalIndex} {l : List Signal} (h : TrackersFit s)
    (hr : ∀ i, (u.route i).trigger = (s.route i).trigger) (hq : ∀ k, u.queue k = if g = k then l else s.queue k)
    (hself : TrackerFit false (some l) (u.tracker (signalSource g)))
    (hother : ∀ i, signalSource g ≠ i → u.tracker i = s.tracker i) : TrackersFit u := fun i => by
  by_cases hi : signalSource g = i
  · subst hi
    have hedge : edgeLine u (signalSource g) = false := edgeLine_eq_false.2 (.inl (by simp))
    rw [hedge, queueOf_signalSource, hq, if_pos rfl]
    exact hself
  · have he : edgeLine u i = edgeLine s i := by simp [edgeLine, hr]
    have hq' : queueOf u i = queueOf s i := by
      cases hg : signalIndex i with
      | none => simp [queueOf, hg]
      | some k =>
        have hne : g ≠ k := by
          rintro rfl
          exact hi (signalIndex_eq_some.1 hg).symm
        simp [queueOf, hg, hq, hne]
    rw [he, hq', hother i hi]
    exact h i

theorem trackerFit_signal (h : TrackersFit s) (g : SignalIndex) :
    TrackerFit false (some (s.queue g)) (s.tracker (signalSource g)) := by
  have := h (signalSource g)
  rwa [queueOf_signalSource, edgeLine_eq_false.2 (.inl (by simp))] at this

/-- The tracker of a source that is not IDLE suits any queue that is not empty. -/
theorem TrackerFit.busy {e : Bool} {q : Option (List Signal)} {t : Tracker} (h : TrackerFit e q t)
    (hs : t.state ≠ .idle) {l : List Signal} (hl : l ≠ []) : TrackerFit e (some l) t :=
  ⟨h.again, h.merged, h.edge, h.idle, fun k hk => by
    obtain rfl := Option.some.inj hk
    simp [hs, hl]⟩

theorem trackersFit_queueOnly {g : SignalIndex} {l : List Signal} (h : TrackersFit s)
    (hs : (s.tracker (signalSource g)).state ≠ .idle) (hl : l ≠ []) : TrackersFit (s.setQueue g l) :=
  trackersFit_setQueue h (fun _ => rfl) (setQueue_queue s g l) ((trackerFit_signal h g).busy hs hl) fun _ _ => rfl

theorem trackersFit_flushQueue {g : SignalIndex} (h : TrackersFit s) : TrackersFit (flushQueue g s) := by
  have hbusy (hs : (s.tracker (signalSource g)).state ≠ .idle) : TrackersFit (s.setQueue g ((s.queue g).take 1)) := by
    refine trackersFit_queueOnly h hs ?_
    have := (trackerFit_signal h g).queue_ne_nil hs _ rfl
    simpa using this
  unfold flushQueue
  split
  · exact h
  · refine trackersFit_setQueue h (fun _ => rfl) (setQueue_queue s g []) ?_ fun i hi => ?_
    · rw [updTracker_eq, setTracker_tracker_self]
      exact trackerFit_toIdle (by simp)
    · rw [updTracker_eq, setTracker_tracker, if_neg hi]
      rfl
  · next hs => exact hbusy (by simp [hs])
  · next hs => exact hbusy (by simp [hs])

/-- Every event keeps trackers fit. -/
theorem event_trackersFit {i : Instr} {b : Bool} (h : Event i s b u) (hp : PairsMatch s) (hs : TrackersFit s) :
    TrackersFit u := by
  have hline (n : Line) : TrackerFit (edgeLine s (lineSource n)) none (s.tracker (lineSource n)) :=
    queueOf_lineSource (s := s) n ▸ hs (lineSource n)
  have hset (n : Line) (x : Tracker) (hx : TrackerFit (edgeLine s (lineSource n)) none x) :
      TrackersFit (s.setTracker (lineSource n) x) := trackersFit_setTracker hs ((queueOf_lineSource n).symm ▸ hx)
  cases h with
  | idle => exact hs
  | notice | leaveBusy | unfence | modes | settings | setFence | late | portResetOffline | tick =>
    exact trackersFit_congr hs (by simp) (by simp) (by simp)
  | join => exact trackersFit_congr hs (by simp) (by simp) (by simp)
  | rise n => exact hset n _ (trackerFit_risen (hline n) edgeLine_lineSource)
  | fallEdge n => exact hset n _ (trackerFit_setLine (hline n) false)
  | fallLevel n => exact hset n _ (trackerFit_deassertEvent (trackerFit_setLine (hline n) false))
  | fallOffered n => exact hset n _ (trackerFit_toIdle nofun)
  | hubReset =>
    intro i
    rw [hubResetState_tracker]
    refine trackerFit_toIdle (t := Tracker.reset false) fun l hl => ?_
    obtain ⟨g, -, rfl⟩ := Option.map_eq_some_iff.1 hl
    exact hubResetState_queue ..
  | hubRelease req =>
    refine trackersFit_of (s := s) (by simp) (by simp) fun i => ?_
    rw [hubReleaseState_tracker]
    exact trackerFit_setLine (hs i) _
  | portReset => exact trackersFit_portResetPresent hp hs
  | lapse p o _ ho => exact trackersFit_lapseOffer hp hs ho
  | reclaim m src _ he => exact trackersFit_chargedRecords hp hs (stacked_iff.2 he)
  | reclaimFence m src _ he =>
    exact trackersFit_fenceMaster (pairsMatch_chargedRecords hp (stacked_iff.2 he))
      (trackersFit_chargedRecords hp hs (stacked_iff.2 he))
  | reclaimLeave m src _ he => exact trackersFit_endLeaving (trackersFit_chargedRecords hp hs (stacked_iff.2 he))
  | take p src via _ hc => exact trackersFit_takeSource hp hs hc
  | leaveEmpty => exact trackersFit_endLeaving hs
  | fence => exact trackersFit_fenceMaster hp hs
  | configure src r x _ _ hr hx =>
    refine trackersFit_of (s := s) (fun i => ?_) (by simp) fun i => ?_
    · rw [configureRoute_route]
      split
      · next hi => exact hi ▸ hr.trigger
      · rfl
    · rw [configureRoute_tracker]
      split
      · next hi => exact trackerFit_passSet (hs i) x (.inr (hi ▸ hx))
      · exact hs i
  | trig src x _ _ hsrc =>
    intro i
    rw [retriggered_tracker]
    by_cases hi : src = i
    · subst hi
      rw [if_pos rfl, queueOf_of_line hsrc]
      exact trackerFit_retrigger
    · rw [if_neg hi]
      have := trackerFit_congr (u := retriggered src x s) (i := i) hs
        (by rw [retriggered_route, if_neg hi]) (by simp) (by rw [retriggered_tracker, if_neg hi])
      rwa [retriggered_tracker, if_neg hi] at this
  | flush => exact trackersFit_flushQueue hs
  | raise g x _ hl hi => exact trackersFit_queueOnly hs hi (by simp)
  | raiseIdle g x _ hl hi =>
    obtain ⟨hm, ha⟩ := (trackerFit_signal hs g).edge rfl
    refine trackersFit_setQueue hs (fun _ => rfl) (setQueue_queue s g (s.queue g ++ [x])) ?_ fun i hi => ?_
    · rw [setTracker_tracker_self]
      exact trackerFit_pending rfl ha (fun _ => hm) (by simp)
    · rw [setTracker_tracker, if_neg hi]
      rfl
  | complete => exact trackersFit_completedRecords hs
  | completeLeave => exact trackersFit_endLeaving (trackersFit_completedRecords hs)

/-! Routes (R18, R27, R29) -/

theorem routesRegular_of (hs : RoutesRegular s) (ht : ∀ i, (u.route i).trigger = (s.route i).trigger)
    (ha : ∀ i, (u.route i).autodone = (s.route i).autodone) : RoutesRegular u := fun i => by
  rw [ht i, ha i]
  exact hs i

/-- Every event keeps routes regular. -/
theorem event_routesRegular {i : Instr} {b : Bool} (h : Event i s b u) (hs : RoutesRegular s) : RoutesRegular u := by
  have hpassed (m : Master) (t : State) (hr : ∀ i, t.route i = passedRoute m (canInherit s m) (s.route i)) :
      RoutesRegular t :=
    routesRegular_of hs (fun i => by rw [hr i, passedRoute_trigger]) fun i => by rw [hr i, passedRoute_autodone]
  cases h with
  | idle => exact hs
  | notice | leaveBusy | unfence | modes | settings | setFence | late | portResetOffline | tick | rise | fallEdge
  | fallLevel | fallOffered | lapse | raise | raiseIdle => exact routesRegular_of hs (by simp) (by simp)
  | join => exact routesRegular_of hs (by simp) (by simp)
  | hubRelease => exact routesRegular_of hs (by simp) (by simp)
  | flush => exact routesRegular_of hs (by simp) (by simp)
  | reclaim => exact routesRegular_of hs (by simp) (by simp)
  | complete => exact routesRegular_of hs (by simp) (by simp)
  | hubReset =>
    intro i
    rw [hubResetState_route]
    exact ⟨nofun, fun _ => rfl⟩
  | portReset => exact hpassed _ _ (portResetPresent_route _ s)
  | fence => exact hpassed _ _ (fenceMaster_route _ s)
  | leaveEmpty => exact hpassed _ _ (endLeaving_route_eq s _)
  | reclaimFence m src =>
    refine routesRegular_of hs (fun i => ?_) fun i => ?_
    · rw [fenceMaster_route, passedRoute_trigger, chargedRecords_route]
    · rw [fenceMaster_route, passedRoute_autodone, chargedRecords_route]
  | reclaimLeave m src =>
    refine routesRegular_of hs (fun i => ?_) fun i => ?_
    · rw [endLeaving_route_eq, passedRoute_trigger, chargedRecords_route]
    · rw [endLeaving_route_eq, passedRoute_autodone, chargedRecords_route]
  | completeLeave p src =>
    refine routesRegular_of hs (fun i => ?_) fun i => ?_
    · rw [endLeaving_route_eq, passedRoute_trigger, completedRecords_route]
    · rw [endLeaving_route_eq, passedRoute_autodone, completedRecords_route]
  | take p src via =>
    refine routesRegular_of hs (fun i => ?_) fun i => ?_ <;> rw [takeSource_route] <;> split
    · next hi => rw [hi]
    · rfl
    · next hi => rw [hi]
    · rfl
  | configure src r x _ _ hr =>
    intro i
    rw [configureRoute_route]
    split
    · next hi =>
      subst hi
      obtain ⟨hlev, hsig⟩ := hs src
      refine ⟨fun hl => ?_, fun h => hr.trigger.trans (hsig h)⟩
      have ho := hlev (hr.trigger.symm.trans hl)
      by_contra hn
      simp [hr.autodone hl (by simpa using hn)] at ho
    · exact hs i
  | trig src x _ _ hsrc _ _ ha =>
    intro i
    rw [retriggered_route]
    split
    · next hi =>
      subst hi
      exact ⟨ha, fun h => by simp [hsrc] at h⟩
    · exact hs i

theorem step_routesRegular (hs : RoutesRegular s) (h : step s = .next u) : RoutesRegular u :=
  step_keeps (fun s t h hs => routesRegular_of hs (fun i => by rw [h.route]) fun i => by rw [h.route])
    (fun s m hs => routesRegular_of hs (by simp) (by simp)) (fun s src hs => routesRegular_of hs (by simp) (by simp))
    (fun _ _ _ _ => event_routesRegular) (fun s hs => routesRegular_of hs (by simp) (by simp)) hs h

end

end Sys2Proof.Machine

/-! PROOFS. Stacks and reclaimed lists (R37, R56, R119). -/

namespace Sys2Proof.Machine

open Sys2Proof.Safety

/-! Reclaimed lists (R119) -/

section
variable {src x : Source} {l : List Source}

theorem placedNewest_length (h : l.length ≤ 8) : (placedNewest src l).length ≤ 8 := placeReclaimed_length src l h

theorem mem_placedNewest (h : x ∈ placedNewest src l) : x ∈ l ∨ x = src := by
  unfold placedNewest at h
  split at h
  · simpa using h
  · rw [List.mem_append, List.mem_singleton] at h
    exact h.imp_left List.mem_of_mem_tail

theorem placedNewest_nodup (hl : l.Nodup) (hsrc : src ∉ l) : (placedNewest src l).Nodup := by
  unfold placedNewest
  split
  · exact List.nodup_append.2 ⟨hl, by simp, fun a ha b hb => by
      rintro rfl
      exact hsrc (List.mem_singleton.1 hb ▸ ha)⟩
  · exact List.nodup_append.2 ⟨hl.sublist (List.tail_sublist l), by simp, fun a ha b hb => by
      rintro rfl
      exact hsrc (List.mem_singleton.1 hb ▸ List.mem_of_mem_tail ha)⟩

/-- Several sources placed in a reclaimed list that holds none of them. -/
theorem placedAll_fit {k : List Source} (hn : l.Nodup) (hlen : l.length ≤ 8) (hk : k.Nodup) (hd : ∀ x ∈ k, x ∉ l) :
    (k.foldl (fun r src => placedNewest src r) l).Nodup ∧
      (k.foldl (fun r src => placedNewest src r) l).length ≤ 8 := by
  induction k generalizing l with
  | nil => exact ⟨hn, hlen⟩
  | cons src k ih =>
    obtain ⟨hsrc, hk⟩ := List.nodup_cons.1 hk
    refine ih (placedNewest_nodup hn (hd src List.mem_cons_self)) (placedNewest_length hlen) hk fun x hx hm => ?_
    rcases mem_placedNewest hm with hm | rfl
    · exact hd x (List.mem_cons_of_mem _ hx) hm
    · exact hsrc hx

end

/-! One context -/

/-- The reclaimed list and the stack of a context are within their sizes and apart, and the stack of a NESTED master
rises (R37, R56, R119). -/
structure ContextFit (c : Context) : Prop where
  size     : c.reclaimed.length ≤ 8
  distinct : c.reclaimed.Nodup
  apart    : ∀ e ∈ c.stack, e.source ∉ c.reclaimed
  rising   : c.nesting = .nested → (c.stack.map (·.urgency)).Pairwise (· < ·)
  depth    : c.stack.length ≤ 8

section
variable {c d : Context}

/-- A context with fewer entries and fewer reclaimed sources. -/
theorem ContextFit.fewer (h : ContextFit c) (hs : d.stack.Sublist c.stack) (hr : d.reclaimed.Sublist c.reclaimed)
    (hn : d.nesting = c.nesting ∨ d.stack = []) : ContextFit d where
  size := hr.length_le.trans h.size
  distinct := h.distinct.sublist hr
  apart e he hm := h.apart e (hs.subset he) (hr.subset hm)
  rising hd := by
    rcases hn with hn | hn
    · exact (h.rising (hn ▸ hd)).sublist (hs.map _)
    · simp [hn]
  depth := hs.length_le.trans h.depth

theorem ContextFit.congr (h : ContextFit c) (hs : d.stack = c.stack) (hr : d.reclaimed = c.reclaimed)
    (hn : d.nesting = c.nesting ∨ d.stack = []) : ContextFit d :=
  h.fewer (hs ▸ List.Sublist.refl _) (hr ▸ List.Sublist.refl _) hn

/-- A context without entries or reclaimed sources. -/
theorem contextFit_empty (hs : c.stack = []) (hr : c.reclaimed = []) : ContextFit c := by
  constructor <;> simp [hs, hr]

/-- The entry for `src` reclaimed (R118). -/
theorem contextFit_reclaimed {src : Source} (h : ContextFit c) (hsrc : ∃ e ∈ c.stack, e.source = src)
    (hs : d.stack = removeEntry src c.stack) (hr : d.reclaimed = placedNewest src c.reclaimed)
    (hn : d.nesting = c.nesting) : ContextFit d where
  size := hr ▸ placedNewest_length h.size
  distinct := by
    obtain ⟨e, he, rfl⟩ := hsrc
    rw [hr]
    exact placedNewest_nodup h.distinct (h.apart e he)
  apart e he hm := by
    rw [hs, mem_removeEntry] at he
    rw [hr] at hm
    rcases mem_placedNewest hm with hm | hm
    · exact h.apart e he.1 hm
    · exact he.2 hm
  rising hd := by
    rw [hs]
    exact (h.rising (hn ▸ hd)).sublist ((removeEntry_sublist _ _).map _)
  depth := by
    rw [hs]
    exact (removeEntry_sublist _ _).length_le.trans h.depth

/-- All entries reclaimed at fencing (R46). -/
theorem contextFit_fenced (h : ContextFit c) (hd : (c.stack.map (·.source)).Nodup) (hs : d.stack = [])
    (hr : d.reclaimed = (c.stack.map (·.source)).foldl (fun l src => placedNewest src l) c.reclaimed) :
    ContextFit d := by
  obtain ⟨hn, hlen⟩ := placedAll_fit h.distinct h.size hd fun x hx => by
    obtain ⟨e, he, rfl⟩ := List.mem_map.1 hx
    exact h.apart e he
  constructor <;> simp only [hs, hr]
  · exact hlen
  · exact hn
  · simp
  · simp
  · simp

/-- The urgencies of a rising stack are below what is above its newest (R56). -/
theorem rising_append {l : List Urgency} {x : Urgency} (h : l.Pairwise (· < ·)) (hx : ∀ y, l.getLast? = some y → y < x) :
    (l ++ [x]).Pairwise (· < ·) := by
  refine List.pairwise_append.2 ⟨h, by simp, fun a ha b hb => ?_⟩
  obtain rfl := List.mem_singleton.1 hb
  obtain ⟨k, y, rfl⟩ := List.eq_nil_or_concat'  l |>.resolve_left (List.ne_nil_of_mem ha)
  have hy : y < b := hx y (by simp)
  rcases List.mem_append.1 ha with hk | hk
  · exact ((List.pairwise_append.1 h).2.2 a hk y (by simp)).trans hy
  · exact (List.mem_singleton.1 hk) ▸ hy

/-- An entry pushed by a take (R93). -/
theorem contextFit_pushed {e : Entry} (h : ContextFit c) (hd : c.stack.length < 8) (hu : UrgencySuits e.urgency c)
    (hs : d.stack = c.stack ++ [e]) (hr : d.reclaimed = c.reclaimed.filter (· != e.source))
    (hn : d.nesting = c.nesting) : ContextFit d where
  size := hr ▸ (List.length_filter_le _ _).trans h.size
  distinct := hr ▸ h.distinct.filter _
  apart x hx hm := by
    rw [hs, List.mem_append, List.mem_singleton] at hx
    rw [hr, List.mem_filter] at hm
    rcases hx with hx | rfl
    · exact h.apart x hx hm.1
    · simp at hm
  rising hc := by
    rw [hs, List.map_append]
    refine rising_append (h.rising (hn ▸ hc)) fun y hy => ?_
    rw [List.getLast?_map] at hy
    obtain ⟨x, hx, rfl⟩ := Option.map_eq_some_iff.1 hy
    exact hu.2 (hn ▸ hc) x hx
  depth := by
    rw [hs, List.length_append]
    exact hd

end

/-! All contexts -/

/-- Every context is fit. -/
def ContextsFit (s : State) : Prop := ∀ m, ContextFit (s.ctx m)

section
variable {s u : State} {m : Master}

theorem contextsFit_iff : ContextsFit s ↔
    (ReclaimedBounded s ∧ ReclaimedApart s ∧ NestedRising s ∧ StacksBounded s) :=
  ⟨fun h => ⟨fun m => (h m).size, fun m => ⟨(h m).distinct, (h m).apart⟩, fun m => (h m).rising, fun m => (h m).depth⟩,
    fun ⟨hb, ha, hn, hd⟩ m => ⟨hb m, (ha m).1, (ha m).2, hn m, hd m⟩⟩

theorem contextsFit_congr (hs : ContextsFit s) (hc : ∀ k, u.ctx k = s.ctx k) : ContextsFit u := fun k => by
  rw [hc k]
  exact hs k

/-- One context replaced by a fit one. -/
theorem contextsFit_ite {c : Context} (hs : ContextsFit s) (hc : ∀ k, u.ctx k = if m = k then c else s.ctx k)
    (h : ContextFit c) : ContextsFit u := fun k => by
  rw [hc k]
  exact ctx_or h (hs k)

/-- One context with its stack and its reclaimed list kept. -/
theorem contextsFit_kept {c : Context} (hs : ContextsFit s) (hc : ∀ k, u.ctx k = if m = k then c else s.ctx k)
    (hst : c.stack = (s.ctx m).stack) (hr : c.reclaimed = (s.ctx m).reclaimed) (hn : c.nesting = (s.ctx m).nesting) :
    ContextsFit u := contextsFit_ite hs hc ((hs m).congr hst hr (.inl hn))

theorem contextsFit_endLeaving (hs : ContextsFit s) : ContextsFit (endLeaving m s) :=
  contextsFit_ite hs (fun k => endLeaving_ctx m k s)
    ((hs m).fewer (List.Sublist.refl _) (List.nil_sublist _) (.inl rfl))

theorem contextsFit_fenceMaster (hd : StacksDistinct s) (hs : ContextsFit s) : ContextsFit (fenceMaster m s) :=
  contextsFit_ite hs (fenceMaster_ctx m s) (contextFit_fenced (hs m) (hd m) rfl rfl)

theorem contextsFit_chargedRecords {src : Source} (hs : ContextsFit s) (he : ∃ e ∈ (s.ctx m).stack, e.source = src) :
    ContextsFit (chargedRecords m src s) :=
  contextsFit_ite hs (chargedRecords_ctx m src s) (contextFit_reclaimed (hs m) he rfl rfl rfl)

theorem contextsFit_completedRecords {src : Source} (hs : ContextsFit s) : ContextsFit (completedRecords m src s) :=
  contextsFit_ite hs (completedRecords_ctx m src s)
    ((hs m).fewer (removeEntry_sublist _ _) (List.Sublist.refl _) (.inl rfl))

/-- What a master takes suits it: it is above its threshold and its stack, which has room (R64, R70, R90). -/
theorem suits_of_candidate {p : Master} {src : Source} (hq : OffersQualify s) (hc : PollCandidate s p src) :
    UrgencySuits (s.route src).urgency (s.ctx p) ∧ (s.ctx p).stack.length < 8 := by
  rcases hc with hc | hc
  · obtain ⟨o, ho, rfl⟩ := ownOffer_iff.1 hc
    obtain ⟨-, -, -, -, hu⟩ := eligibleToPoll_iff.1 (eligible_iff.1 (hq p o ho).2).2
    exact hu
  · obtain ⟨-, -, -, -, -, -, hu⟩ := hc
    exact hu

theorem contextsFit_takeSource {p : Master} {src : Source} {via : Via} (hs : ContextsFit s) (hq : OffersQualify s)
    (hc : PollCandidate s p src) : ContextsFit (takeSource p src via s) := by
  refine contextsFit_ite hs (takeSource_ctx s p src via) ?_
  obtain ⟨hu, hd⟩ := suits_of_candidate hq hc
  cases (s.route src).autodone
  · exact contextFit_pushed (e := newEntry s src via) (hs p) hd hu rfl rfl rfl
  · refine (hs p).fewer ?_ List.filter_sublist (.inl rfl)
    simp

/-- Every event keeps contexts fit. -/
theorem event_contextsFit {i : Instr} {b : Bool} (h : Event i s b u) (hp : PairsMatch s) (ha : AwayMastersClear s)
    (hq : OffersQualify s) (hs : ContextsFit s) : ContextsFit u := by
  cases h with
  | idle => exact hs
  | notice | rise | fallEdge | fallLevel | fallOffered | lapse | settings | configure | trig | raise | raiseIdle =>
    exact contextsFit_congr hs (by simp)
  | hubRelease => exact contextsFit_congr hs (by simp)
  | flush => exact contextsFit_congr hs (by simp)
  | hubReset =>
    intro k
    rw [hubResetState_ctx]
    exact contextFit_empty rfl rfl
  | portReset p => exact contextsFit_ite hs (portResetPresent_ctx p s) (contextFit_empty rfl rfl)
  | portResetOffline p _ hi hoff =>
    exact contextsFit_ite hs (resetPortRecords_ctx p s) (contextFit_empty ((ha p).stack (.inl hoff)).1 rfl)
  | tick x =>
    intro k
    rw [raiseExpiries_ctx, raiseEntry_eq]
    obtain ⟨hsz, hdi, hap, hri, hde⟩ := hs k
    refine ⟨hsz, hdi, fun e he => ?_, fun hn => ?_, by simpa using hde⟩
    · obtain ⟨e', he', rfl⟩ := List.mem_map.1 he
      exact hap e' he'
    · rw [List.map_map]
      exact hri hn
  | setFence =>
    intro k
    rw [clearMisses_ctx]
    exact (hs k).congr rfl rfl (.inl rfl)
  | reclaim m src _ he => exact contextsFit_chargedRecords hs he
  | reclaimFence m src _ he =>
    exact contextsFit_fenceMaster (pairsMatch_chargedRecords hp (stacked_iff.2 he)).2 (contextsFit_chargedRecords hs he)
  | reclaimLeave m src _ he => exact contextsFit_endLeaving (contextsFit_chargedRecords hs he)
  | take p src via _ hc => exact contextsFit_takeSource hs hq hc
  | join p => exact contextsFit_kept hs (fun k => (notifyOthers_ctx ..).trans (setPortState_ctx p k _ s)) rfl rfl rfl
  | leaveEmpty => exact contextsFit_endLeaving hs
  | leaveBusy p => exact contextsFit_kept hs (fun k => setPortState_ctx p k _ s) rfl rfl rfl
  | fence => exact contextsFit_fenceMaster hp.2 hs
  | unfence m =>
    exact contextsFit_ite hs (readmit_ctx s m)
      ((hs m).fewer (List.Sublist.refl _) (List.nil_sublist _) (.inl rfl))
  | modes p d _ _ _ hd =>
    exact contextsFit_ite hs (setCtx_ctx s p d)
      ((hs p).congr hd.stack hd.reclaimed (hd.nesting.imp_right fun h => hd.stack.trans h))
  | complete => exact contextsFit_completedRecords hs
  | completeLeave => exact contextsFit_endLeaving (contextsFit_completedRecords hs)
  | late p src =>
    exact contextsFit_ite hs (setCtx_ctx s p _) ((hs p).fewer (List.Sublist.refl _) List.filter_sublist (.inl rfl))

end

end Sys2Proof.Machine

/-! PROOFS. What needs no dispatch pass (R68, R70, R77), and the invariants of the records together. -/

namespace Sys2Proof.Machine

open Sys2Proof.Safety

/-! Eligibility by what it reads (R64) -/

/-- What eligibility reads of a context: the urgencies of the stack, and not its entries. -/
structure SameView (c d : Context) : Prop where
  portState : d.portState = c.portState
  lineMode  : d.lineMode = c.lineMode
  maskSet   : d.maskSet = c.maskSet
  threshold : d.threshold = c.threshold
  nesting   : d.nesting = c.nesting
  urgencies : d.stack.map (·.urgency) = c.stack.map (·.urgency)

theorem SameView.refl (c : Context) : SameView c c := ⟨rfl, rfl, rfl, rfl, rfl, rfl⟩

section
variable {c d : Context} {s u : State} {i : Source} {m : Master}

theorem SameView.depth (h : SameView c d) : d.stack.length = c.stack.length := by
  simpa using congrArg List.length h.urgencies

theorem newest_urgency {c : Context} {x : Urgency} :
    (∀ e, c.stack.getLast? = some e → e.urgency < x) ↔
      ∀ y, (c.stack.map (·.urgency)).getLast? = some y → y < x := by
  rw [List.getLast?_map]
  constructor
  · intro h y hy
    obtain ⟨e, he, rfl⟩ := Option.map_eq_some_iff.1 hy
    exact h e he
  · intro h e he
    exact h _ (by simp [he])

theorem SameView.suits (h : SameView c d) (x : Urgency) : UrgencySuits x d ↔ UrgencySuits x c := by
  rw [UrgencySuits, UrgencySuits, h.threshold, h.nesting, newest_urgency, newest_urgency, h.urgencies]

/-- What a pass reads of a source: targets, urgency and enabled of its route, state and pass set of its tracker. -/
structure SameReads (s u : State) (i : Source) : Prop where
  targets : (u.route i).targets = (s.route i).targets
  urgency : (u.route i).urgency = (s.route i).urgency
  enabled : (u.route i).enabled = (s.route i).enabled
  state   : (u.tracker i).state = (s.tracker i).state
  passSet : (u.tracker i).passSet = (s.tracker i).passSet

theorem eligible_of_view (ht : (u.route i).targets = (s.route i).targets)
    (hu : (u.route i).urgency = (s.route i).urgency) (hp : (u.tracker i).passSet = (s.tracker i).passSet)
    (hv : SameView (s.ctx m) (u.ctx m)) : eligible u i m = eligible s i m := by
  rw [Bool.eq_iff_iff, eligible_iff, eligible_iff, eligibleToPoll_iff, eligibleToPoll_iff, ht, hu, hp, hv.lineMode,
    hv.portState, hv.maskSet, hv.suits, hv.depth]

theorem SameReads.eligible (h : SameReads s u i) (hv : SameView (s.ctx m) (u.ctx m)) :
    eligible u i m = eligible s i m := eligible_of_view h.targets h.urgency h.passSet hv

theorem SameReads.offerable (h : SameReads s u i) : offerable u i = offerable s i := by
  rw [Bool.eq_iff_iff, offerable_iff, offerable_iff, h.state, h.enabled, h.targets]

/-! Changes after which no pass is due -/

/-- From `s` to `u` no source comes to wait that did not, and no offer ceases to qualify. -/
structure Calm (s u : State) : Prop where
  offer   : ∀ m, (u.offer m).map (·.source) = (s.offer m).map (·.source)
  urgency : ∀ i, (u.route i).urgency = (s.route i).urgency
  waits   : ∀ i m, offerable u i = true → eligible u i m = true → offerable s i = true ∧ eligible s i m = true
  stands  : ∀ m o, s.offer m = some o → (s.route o.source).enabled = true ∧ eligible s o.source m = true →
    (u.route o.source).enabled = true ∧ eligible u o.source m = true

theorem Calm.qualify (h : Calm s u) (hq : OffersQualify s) : OffersQualify u := fun m o ho => by
  have hm := h.offer m
  rw [ho] at hm
  obtain ⟨o', ho', hsrc⟩ := Option.map_eq_some_iff.1 hm.symm
  have := h.stands m o' ho' (hq m o' ho')
  rwa [hsrc] at this

theorem Calm.noneWaits (h : Calm s u) (hn : NoneWaitsBeforeFreeSlot s) : NoneWaitsBeforeFreeSlot u :=
  fun i m hoff hel => by
    obtain ⟨hoff', hel'⟩ := h.waits i m hoff hel
    obtain ⟨o, ho, hu⟩ := hn i m hoff' hel'
    have hm := h.offer m
    rw [ho] at hm
    obtain ⟨o', ho', hsrc⟩ := Option.map_eq_some_iff.1 hm
    refine ⟨o', ho', ?_⟩
    rw [h.urgency, h.urgency, hsrc]
    exact hu

/-- Each source is read as before, or it neither had an offer nor waits for one. -/
theorem calm_of_sources (hp : PairsMatch s) (ho : ∀ m, (u.offer m).map (·.source) = (s.offer m).map (·.source))
    (hu : ∀ i, (u.route i).urgency = (s.route i).urgency) (hv : ∀ m, SameView (s.ctx m) (u.ctx m))
    (hi : ∀ i, SameReads s u i ∨ ((s.tracker i).state ≠ .offered ∧ offerable u i = false)) : Calm s u where
  offer := ho
  urgency := hu
  waits i m hoff hel := by
    rcases hi i with h | ⟨-, hn⟩
    · rw [← h.offerable, ← h.eligible (hv m)]
      exact ⟨hoff, hel⟩
    · simp [hn] at hoff
  stands m o hmo hel := by
    rcases hi o.source with h | ⟨hn, -⟩
    · rw [h.enabled, h.eligible (hv m)]
      exact hel
    · exact absurd (((hp.1 o.source).offered m).1 (ownOffer_iff.2 ⟨o, hmo, rfl⟩)).1 hn

/-- Trackers and routes as they were. -/
theorem calm_of_view (hp : PairsMatch s) (ht : ∀ i, u.tracker i = s.tracker i) (hr : ∀ i, u.route i = s.route i)
    (ho : ∀ m, (u.offer m).map (·.source) = (s.offer m).map (·.source)) (hv : ∀ m, SameView (s.ctx m) (u.ctx m)) :
    Calm s u :=
  calm_of_sources hp ho (fun i => by rw [hr i]) hv fun i => .inl
    ⟨by rw [hr i], by rw [hr i], by rw [hr i], by rw [ht i], by rw [ht i]⟩

/-- The view of one context kept. -/
theorem sameView_ite {c : Context} {k : Master} (h : SameView (s.ctx m) c) :
    SameView (s.ctx k) (if m = k then c else s.ctx k) := by
  split
  · next hk => exact hk ▸ h
  · exact .refl _

theorem SameReads.refl (s : State) (i : Source) : SameReads s s i := ⟨rfl, rfl, rfl, rfl, rfl⟩

theorem not_offerable_of_state (h : (u.tracker i).state ≠ .pending) : offerable u i = false :=
  Bool.eq_false_iff.2 fun ho => h (offerable_iff.1 ho).1

theorem not_offerable_of_disabled (h : (u.route i).enabled = false) : offerable u i = false := by
  simp [offerable, h]

/-- One tracker set: state and pass set kept, or it neither had an offer nor waits for one. -/
theorem calm_setTracker {x : Tracker} (hp : PairsMatch s)
    (h : (x.state = (s.tracker i).state ∧ x.passSet = (s.tracker i).passSet) ∨
      ((s.tracker i).state ≠ .offered ∧ x.state ≠ .pending)) : Calm s (s.setTracker i x) := by
  refine calm_of_sources hp (fun _ => rfl) (fun _ => rfl) (fun _ => .refl _) fun j => ?_
  by_cases hj : i = j
  · subst hj
    rcases h with ⟨hst, hps⟩ | ⟨hno, hnp⟩
    · exact .inl ⟨rfl, rfl, rfl, by simpa using hst, by simpa using hps⟩
    · exact .inr ⟨hno, not_offerable_of_state (by simpa using hnp)⟩
  · exact .inl ⟨rfl, rfl, rfl, by rw [setTracker_tracker, if_neg hj], by rw [setTracker_tracker, if_neg hj]⟩

theorem deassertEvent_calm {t : Tracker} (h : t.state ≠ .offered) :
    (t.deassertEvent.state = t.state ∧ t.deassertEvent.passSet = t.passSet) ∨ t.deassertEvent.state ≠ .pending := by
  unfold Tracker.deassertEvent
  split
  · exact .inl ⟨rfl, rfl⟩
  · exact .inr (by simp [Tracker.toIdle])
  · contradiction
  · exact .inl ⟨rfl, rfl⟩

theorem calm_configureRoute {r : Route} (hp : PairsMatch s) (hr : RouteQuiet s i r) :
    Calm s (configureRoute i r (s.tracker i).passSet s) := by
  have ht (j : Source) : (configureRoute i r (s.tracker i).passSet s).tracker j = s.tracker j := by
    rw [configureRoute_tracker]
    split
    · next h => rw [h]
    · rfl
  refine calm_of_sources hp (fun _ => rfl) (fun j => ?_) (fun _ => .refl _) fun j => ?_
  · rw [configureRoute_route]
    split
    · next h => exact h ▸ hr.urgency
    · rfl
  · by_cases hj : i = j
    · subst hj
      have hroute : (configureRoute i r (s.tracker i).passSet s).route i = r := by
        rw [configureRoute_route, if_pos rfl]
      by_cases he : r.enabled = (s.route i).enabled
      · refine .inl ⟨?_, ?_, ?_, by rw [ht], by rw [ht]⟩ <;> rw [hroute]
        · exact hr.targets
        · exact hr.urgency
        · exact he
      · refine .inr ⟨mt hr.offered he, not_offerable_of_disabled ?_⟩
        rw [hroute, Bool.eq_false_iff]
        exact fun h => he (h.trans (hr.enabled h).symm)
    · have hroute : (configureRoute i r (s.tracker i).passSet s).route j = s.route j := by
        rw [configureRoute_route, if_neg hj]
      exact .inl ⟨by rw [hroute], by rw [hroute], by rw [hroute], by rw [ht], by rw [ht]⟩

theorem calm_retriggered {x : Trigger} (hp : PairsMatch s) (hs : Resting (s.tracker i))
    (he : (s.route i).enabled = false) : Calm s (retriggered i x s) := by
  refine calm_of_sources hp (fun _ => rfl) (fun j => ?_) (fun _ => .refl _) fun j => ?_
  · rw [retriggered_route]
    split <;> rfl
  · by_cases hj : i = j
    · subst hj
      refine .inr ⟨hs.ne_offered, not_offerable_of_disabled ?_⟩
      rw [retriggered_route, if_pos rfl]
      exact he
    · have hr : (retriggered i x s).route j = s.route j := by rw [retriggered_route, if_neg hj]
      have ht : (retriggered i x s).tracker j = s.tracker j := by rw [retriggered_tracker, if_neg hj]
      exact .inl ⟨by rw [hr], by rw [hr], by rw [hr], by rw [ht], by rw [ht]⟩

theorem calm_flushQueue {g : SignalIndex} (hp : PairsMatch s) : Calm s (flushQueue g s) := by
  have hqueue (l : List Signal) : Calm s (s.setQueue g l) :=
    calm_of_view hp (fun _ => rfl) (fun _ => rfl) (fun _ => rfl) fun _ => .refl _
  unfold flushQueue
  split
  · exact calm_of_view hp (fun _ => rfl) (fun _ => rfl) (fun _ => rfl) fun _ => .refl _
  · next hs =>
    have h : Calm (s.setQueue g [])
        ((s.setQueue g []).setTracker (signalSource g) (s.tracker (signalSource g)).toIdle) :=
      calm_setTracker (pairsMatch_setQueue hp) (.inr ⟨by simp [hs], by simp [Tracker.toIdle]⟩)
    exact ⟨h.offer, h.urgency, h.waits, h.stands⟩
  · exact hqueue _
  · exact hqueue _

/-- A master that is not ONLINE is eligible for nothing (R64). -/
theorem not_eligible_of_offline (h : (s.ctx m).portState = .offline) : eligible s i m = false := by
  refine Bool.eq_false_iff.2 fun he => ?_
  obtain ⟨-, hon, -⟩ := eligibleToPoll_iff.1 (eligible_iff.1 he).2
  simp [h] at hon

/-- The context of an OFFLINE master, which stays OFFLINE, is read by nothing. -/
theorem calm_offline {c : Context} (hoff : (s.ctx m).portState = .offline) (hc : c.portState = .offline)
    (ht : ∀ i, u.tracker i = s.tracker i) (hr : ∀ i, u.route i = s.route i) (ho : ∀ k, u.offer k = s.offer k)
    (hu : ∀ k, u.ctx k = if m = k then c else s.ctx k) : Calm s u := by
  have hel (i : Source) (k : Master) : eligible u i k = eligible s i k := by
    by_cases hk : m = k
    · subst hk
      rw [not_eligible_of_offline hoff, not_eligible_of_offline (by rw [hu, if_pos rfl]; exact hc)]
    · exact eligible_congr (hr i) (by rw [hu, if_neg hk]) (by rw [ht])
  refine ⟨fun k => by rw [ho k], fun i => by rw [hr i], fun i k hoff' hel' => ?_, fun k o hk h => ?_⟩
  · rw [hel] at hel'
    refine ⟨?_, hel'⟩
    rw [offerable_iff] at hoff' ⊢
    rwa [ht, hr] at hoff'
  · rw [hr, hel]
    exact h

/-- Modes that ask for no pass. -/
theorem calm_modes {p : Master} {c : Context} (hn : ModesNarrow s p c) : Calm s (s.setCtx p c) := by
  have hother (i : Source) (k : Master) (hk : p ≠ k) : eligible (s.setCtx p c) i k = eligible s i k :=
    eligible_congr rfl (by rw [setCtx_ctx, if_neg hk]) rfl
  refine ⟨fun _ => rfl, fun _ => rfl, fun i k hoff hel => ⟨hoff, ?_⟩, fun k o hk ⟨hen, hel⟩ => ⟨hen, ?_⟩⟩
  · by_cases hk : p = k
    · subst hk
      exact hn.eligible i hel
    · rwa [hother i k hk] at hel
  · by_cases hpk : p = k
    · subst hpk
      exact (hn.offer o hk).2 hel
    · rwa [hother _ k hpk]

/-- Every event that ends without a pass is calm, or resets the hub. -/
theorem event_calm {j : Instr} {b : Bool} (h : Event j s b u) (hb : b = false) (hp : PairsMatch s) :
    Calm s u ∨ u = hubResetState s := by
  have hview (t : State) (ht : ∀ i, t.tracker i = s.tracker i) (hr : ∀ i, t.route i = s.route i)
      (ho : ∀ m, t.offer m = s.offer m) (hv : ∀ m, SameView (s.ctx m) (t.ctx m)) : Calm s t :=
    calm_of_view hp ht hr (fun m => by rw [ho m]) hv
  cases h with
  | hubReset => exact .inr rfl
  | portReset | lapse | reclaim | reclaimFence | reclaimLeave | take | join | leaveEmpty | leaveBusy | fence | unfence
  | raiseIdle | complete | completeLeave | fallOffered => cases hb
  | idle => exact .inl (hview _ (fun _ => rfl) (fun _ => rfl) (fun _ => rfl) fun _ => .refl _)
  | notice | settings | raise => exact .inl (hview _ (fun _ => rfl) (fun _ => rfl) (fun _ => rfl) fun _ => .refl _)
  | rise n =>
    obtain ⟨hs, -, hps⟩ := risen_of_busy (x := (s.route (lineSource n)).trigger) (of_decide_eq_false hb)
    exact .inl (calm_setTracker hp (.inl ⟨hs, hps⟩))
  | fallEdge n => exact .inl (calm_setTracker hp (.inl ⟨rfl, rfl⟩))
  | fallLevel n _ he ho =>
    refine .inl (calm_setTracker hp ?_)
    exact (deassertEvent_calm (t := (s.tracker (lineSource n)).setLine false) ho).imp_right fun h => ⟨ho, h⟩
  | hubRelease req =>
    refine .inl (calm_of_sources hp (by simp) (by simp) (fun m => ?_) fun i => ?_)
    · rw [hubReleaseState_ctx]
      exact .refl _
    refine .inl ⟨?_, ?_, ?_, ?_, ?_⟩
    · rw [hubReleaseState_route]
    · rw [hubReleaseState_route]
    · rw [hubReleaseState_route]
    · rw [hubReleaseState_tracker]
    · rw [hubReleaseState_tracker]
  | portResetOffline p _ hi hoff =>
    refine .inl (calm_offline hoff ?_ (by simp) (by simp) (by simp) (resetPortRecords_ctx p s))
    exact hoff
  | tick x =>
    refine .inl (calm_of_view hp (by simp) (by simp) (fun m => ?_) fun m => ?_)
    · rw [raiseExpiries_offer, Option.map_map, raiseOffer_eq]
      rfl
    · rw [raiseExpiries_ctx, raiseEntry_eq]
      exact ⟨rfl, rfl, rfl, rfl, rfl, by simp⟩
  | setFence =>
    refine .inl (hview _ (by simp) (by simp) (by simp) fun m => ?_)
    rw [clearMisses_ctx]
    exact ⟨rfl, rfl, rfl, rfl, rfl, rfl⟩
  | modes p d _ _ hi hd hn => exact .inl (calm_modes (hn hb))
  | configure src r x _ _ hr hx hq =>
    obtain ⟨hquiet, rfl⟩ := hq hb
    exact .inl (calm_configureRoute hp hquiet)
  | trig src x _ _ hsrc hs he => exact .inl (calm_retriggered hp hs he)
  | flush => exact .inl (calm_flushQueue hp)
  | late p =>
    refine .inl (hview _ (by simp) (by simp) (by simp) fun m => ?_)
    rw [setCtx_ctx]
    exact sameView_ite ⟨rfl, rfl, rfl, rfl, rfl, rfl⟩

/-- What an event without a pass leaves, a pass would leave as it is. -/
theorem event_settled {j : Instr} {b : Bool} (h : Event j s b u) (hb : b = false) (hp : PairsMatch s)
    (hq : OffersQualify s) (hn : NoneWaitsBeforeFreeSlot s) : OffersQualify u ∧ NoneWaitsBeforeFreeSlot u := by
  rcases event_calm h hb hp with hc | rfl
  · exact ⟨hc.qualify hq, hc.noneWaits hn⟩
  · refine ⟨fun m o ho => by simp at ho, fun i m hoff => ?_⟩
    have he : ((hubResetState s).route i).enabled = false := by
      rw [hubResetState_route]
      rfl
    rw [not_offerable_of_disabled he] at hoff
    cases hoff

/-! The invariants of the records -/

/-- The invariants of the records that hold at every stage of an event. -/
structure RecordsFit (s : State) : Prop where
  pairs    : PairsMatch s
  trackers : TrackersFit s
  away     : AwayMastersClear s
  contexts : ContextsFit s

/-- Tracker, offer and queue records aside, as they were. -/
theorem RecordsFit.frame (h : RecordsFit s) (hp : PairsMatch u) (ht : TrackersFit u) (hc : ∀ k, u.ctx k = s.ctx k)
    (hq : ∀ k, u.port k = s.port k) : RecordsFit u :=
  ⟨hp, ht, awayMastersClear_frame h.away hc hq, contextsFit_congr h.contexts hc⟩

theorem RecordsFit.withdraw (h : RecordsFit s) : RecordsFit (withdraw m s) :=
  h.frame (pairsMatch_withdraw h.pairs) (trackersFit_withdraw h.pairs h.trackers) (by simp) (by simp)

theorem RecordsFit.withdrawSource (h : RecordsFit s) : RecordsFit (withdrawSource i s) :=
  h.frame (pairsMatch_withdrawSource h.pairs) (trackersFit_withdrawSource h.pairs h.trackers) (by simp) (by simp)

theorem RecordsFit.dispatchPass (h : RecordsFit s) : RecordsFit (dispatchPass s) :=
  h.frame (pairsMatch_dispatchPass h.pairs) (trackersFit_dispatchPass h.pairs h.trackers) (dispatchPass_ctx s)
    (dispatchPass_port s)

theorem RecordsFit.same (h : RecordsFit s) (hr : SameRecords s u) : RecordsFit u :=
  ⟨pairsMatch_same hr h.pairs, trackersFit_congr h.trackers (fun i => by rw [hr.route]) hr.queue hr.tracker,
    awayMastersClear_same hr h.away, contextsFit_congr h.contexts hr.ctx⟩

theorem RecordsFit.event {j : Instr} {b : Bool} (h : RecordsFit s) (he : Event j s b u) (hq : OffersQualify s) :
    RecordsFit u :=
  ⟨event_pairsMatch he h.pairs, event_trackersFit he h.pairs h.trackers,
    event_awayMastersClear he h.away (offersOnline_of_qualify hq), event_contextsFit he h.pairs h.away hq h.contexts⟩

theorem offersQualify_withdraw (hq : OffersQualify s) : OffersQualify (withdraw m s) := fun k o ho => by
  rw [withdraw_offer] at ho
  split at ho
  · cases ho
  · rw [withdraw_route, eligible_withdraw]
    exact hq k o ho

theorem offersQualify_withdrawSource (hp : PairsMatch s) (hq : OffersQualify s) : OffersQualify (withdrawSource i s) := by
  by_cases ho : (s.tracker i).state = .offered
  · obtain ⟨m, -, hw⟩ := withdrawSource_eq (hp.1 i) ho
    rw [hw]
    exact offersQualify_withdraw hq
  · rw [withdrawSource_of_not_offered ho]
    exact hq

theorem calm_same (hr : SameRecords s u) (hp : PairsMatch s) : Calm s u :=
  calm_of_view hp hr.tracker hr.route (fun m => by rw [hr.offer m]) fun m => by
    rw [hr.ctx m]
    exact .refl _

/-- Every step keeps the invariants of the records. -/
theorem step_recordsFit (h : RecordsFit s) (hq : OffersQualify s) (hn : NoneWaitsBeforeFreeSlot s)
    (hs : step s = .next u) : RecordsFit u ∧ OffersQualify u ∧ NoneWaitsBeforeFreeSlot u :=
  step_settles (fun _ _ hr ⟨h, hq, hn⟩ =>
      ⟨h.same hr, (calm_same hr h.pairs).qualify hq, (calm_same hr h.pairs).noneWaits hn⟩)
    (fun _ _ h hq => ⟨h.withdraw, offersQualify_withdraw hq⟩)
    (fun _ _ h hq => ⟨h.withdrawSource, offersQualify_withdrawSource h.pairs hq⟩)
    (fun _ _ _ _ he h hq => h.event he hq) (fun _ _ _ he h hq hn => event_settled he rfl h.pairs hq hn)
    (fun s h => ⟨h.dispatchPass, passLeavesOnlyQualifyingOffers s, dispatchPass_noneWaits s⟩) ⟨h, hq, hn⟩ hs

end

end Sys2Proof.Machine

/-! PROOFS. What the hub has taken of its inputs (R3, R49, R86, R159), and ports held in reset (R50, R158, R159). -/

namespace Sys2Proof.Machine

open Sys2Proof.Safety

/-! One input -/

/-- What the hub has taken of an input: the level recognised, or its opposite while the change waits. -/
def takenLevel (i : Sampler) : Bool := i.level != i.change

theorem takenLevel_taken {i : Sampler} {b : Bool} (h : i.level = b) : takenLevel i.taken = b := by
  simp [takenLevel, Sampler.taken, h]

theorem takenLevel_settled (b : Bool) : takenLevel (Sampler.settled b) = b := by simp [takenLevel, Sampler.settled]

/-- A sample takes nothing: a change it recognises waits. -/
theorem takenLevel_sample {i : Sampler} (h : i.change = false) (n : Nat) (x : Bool) :
    takenLevel (i.sample n x) = takenLevel i := by
  unfold takenLevel Sampler.sample
  split
  · rfl
  · next hx =>
    split
    · simp [h, Bool.eq_not.2 hx]
    · rfl

/-! Pins -/

/-- What a port holds follows its pins (R49, R86). -/
def PinFollowed (q : Port) (prst iack : Sampler) : Prop :=
  q.resetHeld = takenLevel prst ∧ q.iackHeld = takenLevel iack

/-- What is taken of PRSTn, IACK and HRST follows the pins (R49, R86, R159). -/
def PinsFollowed (s : State) : Prop :=
  (∀ p, PinFollowed (s.port p) (s.prstInput p) (s.iackInput p)) ∧ s.hubHeld = takenLevel s.inputs.hrst

/-- What is taken of the request lines follows them (R3, R5). -/
def LinesFollowed (s : State) : Prop := ∀ n : Line, (s.tracker (lineSource n)).line = takenLevel (s.reqLine n)

theorem inputsFollowed_iff {s : State} : InputsFollowed s ↔ LinesFollowed s ∧ PinsFollowed s := Iff.rfl

section
variable {s t u : State} {p k : Master}

theorem takePrstChange_prstInput (held : Bool) :
    (takePrstChange p held s).prstInput k = if p = k then (s.prstInput p).taken else s.prstInput k := by
  simp only [takePrstChange, State.prstInput, updPort_eq, setPort_inputs, setInputs_inputs,
    Vector.getElem_set, Fin.ext_iff]

theorem takePrstChange_iackInput (held : Bool) : (takePrstChange p held s).iackInput k = s.iackInput k := rfl

theorem takeIackChange_prstInput (held : Bool) (w : Word) :
    (takeIackChange p held w s).prstInput k = s.prstInput k := rfl

theorem takeIackChange_iackInput (held : Bool) (w : Word) :
    (takeIackChange p held w s).iackInput k = if p = k then (s.iackInput p).taken else s.iackInput k := by
  simp only [takeIackChange, State.iackInput, updPort_eq, setPort_inputs, setInputs_inputs,
    Vector.getElem_set, Fin.ext_iff]

theorem takeIackChange_port (held : Bool) (w : Word) :
    (takeIackChange p held w s).port k =
      if p = k then { s.port p with iackHeld := held, ackWord := w } else s.port k := by
  rw [takeIackChange, updPort_eq, setPort_port]
  rfl

theorem takeLineChange_reqLine (n j : Line) :
    (takeLineChange n s).reqLine j = if n = j then (s.reqLine n).taken else s.reqLine j := by
  simp only [takeLineChange, State.reqLine, setInputs_inputs, Vector.getElem_set, Fin.ext_iff]

/-- The fields of a window that its notices leave alone. -/
theorem window_of_bare {q r : Port} (h : q.bare = r.bare) :
    q.resetHeld = r.resetHeld ∧ q.iackHeld = r.iackHeld ∧ q.overrun = r.overrun ∧ q.ackWord = r.ackWord :=
  ⟨(congrArg Port.resetHeld h :), (congrArg Port.iackHeld h :),
    (congrArg Port.overrun h :), (congrArg Port.ackWord h :)⟩

theorem pinsFollowed_wires (h : t.wires = u.wires) (hu : PinsFollowed u) : PinsFollowed t := by
  have hi := inputs_of_wires h
  refine ⟨fun k => ?_, by rw [hubHeld_of_wires h, hi]; exact hu.2⟩
  obtain ⟨hr, ha, -⟩ := window_of_bare (bare_of_wires h k)
  rw [PinFollowed, hr, ha, State.prstInput, State.iackInput, hi]
  exact hu.1 k

theorem pinsFollowed_setPort {q : Port} (hs : PinsFollowed s) (hr : q.resetHeld = (s.port p).resetHeld)
    (ha : q.iackHeld = (s.port p).iackHeld) : PinsFollowed (s.setPort p q) := by
  refine ⟨fun k => ?_, hs.2⟩
  rw [setPort_port]
  split
  · next hk =>
    subst hk
    exact ⟨hr.trans (hs.1 p).1, ha.trans (hs.1 p).2⟩
  · exact hs.1 k

theorem pinsFollowed_takeIackChange {held : Bool} {w : Word} (hs : PinsFollowed s)
    (hl : (s.iackInput p).level = held) : PinsFollowed (takeIackChange p held w s) := by
  refine ⟨fun k => ?_, hs.2⟩
  rw [takeIackChange_port, takeIackChange_iackInput, takeIackChange_prstInput]
  by_cases hk : p = k
  · subst hk
    simp only [if_true]
    exact ⟨(hs.1 p).1, (takenLevel_taken hl).symm⟩
  · simp only [hk, if_false]
    exact hs.1 k

theorem pinsFollowed_takePrstChange {held : Bool} (hs : PinsFollowed s) (hl : (s.prstInput p).level = held) :
    PinsFollowed (takePrstChange p held s) := by
  refine ⟨fun k => ?_, hs.2⟩
  rw [takePrstChange_port, takePrstChange_prstInput, takePrstChange_iackInput]
  by_cases hk : p = k
  · subst hk
    simp only [if_true]
    exact ⟨(takenLevel_taken hl).symm, (hs.1 p).2⟩
  · simp only [hk, if_false]
    exact hs.1 k

theorem pinsFollowed_ignoreIackAssertion (hs : PinsFollowed s) : PinsFollowed (ignoreIackAssertion s p) := by
  unfold ignoreIackAssertion
  split
  · next h => exact pinsFollowed_takeIackChange hs (waiting_iff.1 h).1
  · exact hs

theorem pinsFollowed_resetPortRecords (hs : PinsFollowed s) : PinsFollowed (resetPortRecords p s) := by
  refine ⟨fun k => ?_, hs.2⟩
  rw [resetPortRecords_port]
  split
  · next hk =>
    subst hk
    exact hs.1 p
  · exact hs.1 k

theorem pinsFollowed_hubRelease {req : BitVec 24} (hs : PinsFollowed s) (hl : s.inputs.hrst.level = false) :
    PinsFollowed (hubRelease req s) := by
  obtain ⟨hv, hh⟩ := foldl_keeps (P := fun u => PinsFollowed u ∧ u.inputs.hrst = s.inputs.hrst)
    (fun u p h => ⟨pinsFollowed_ignoreIackAssertion h.1, (ignoreIackAssertion_frame u p).hrst.trans h.2⟩) masters
    ⟨hs, rfl⟩
  obtain ⟨hp, hi, hr⟩ := hubReleaseState_inputs req (masters.foldl ignoreIackAssertion s)
  refine ⟨fun k => ?_, ?_⟩
  · rw [hubRelease, hubReleaseState_port, hubReleaseState_iackInput, State.prstInput, hp]
    exact hv.1 k
  · rw [hubRelease, hr, hh, takenLevel_taken hl]
    rfl

theorem pinsFollowed_hubResetState (hs : PinsFollowed s) (hl : s.inputs.hrst.level = true) :
    PinsFollowed (hubResetState s) := by
  refine ⟨fun k => ?_, (takenLevel_taken hl).symm⟩
  rw [hubResetState_port]
  exact hs.1 k

theorem pinsFollowed_samplePeriod {sm : Samples} (hn : NoChangeWaits s) (hs : PinsFollowed s) :
    PinsFollowed (samplePeriod sm s) := by
  obtain ⟨-, hp, hi, hh⟩ := hn
  refine ⟨fun k => ?_, ?_⟩
  · rw [PinFollowed, samplePeriod_prstInput, samplePeriod_iackInput, takenLevel_sample (hp k), takenLevel_sample (hi k)]
    exact hs.1 k
  · rw [samplePeriod_hrst, takenLevel_sample hh]
    exact hs.2

theorem Written.window {q r : Port} (h : Written q r) : r.resetHeld = q.resetHeld ∧ r.iackHeld = q.iackHeld := by
  rcases h with ⟨-, w, rfl⟩ | rfl <;> exact ⟨rfl, rfl⟩

/-- Every row takes of the pins what waits. -/
theorem wired_pinsFollowed {i : Instr} (h : Wired i s t) (hs : PinsFollowed s) : PinsFollowed t := by
  cases h with
  | keep _ _ h => exact pinsFollowed_wires h hs
  | line n _ _ hi h => exact pinsFollowed_wires h ⟨hs.1, hs.2⟩
  | reply p words _ _ hc hl h => exact pinsFollowed_wires h (pinsFollowed_setPort hs rfl rfl)
  | write p q _ _ hh hw h => exact pinsFollowed_wires h (pinsFollowed_setPort hs hw.window.1 hw.window.2)
  | read p w r _ _ hr h => exact pinsFollowed_wires h (pinsFollowed_setPort hs rfl rfl)
  | iack p held w _ _ hw hz h => exact pinsFollowed_wires h (pinsFollowed_takeIackChange hs hw.1)
  | prstHeld p _ _ hw hh h => exact pinsFollowed_wires h (pinsFollowed_takePrstChange hs hw.1)
  | prstReset p _ _ hw hp h =>
    exact pinsFollowed_wires h (pinsFollowed_resetPortRecords (pinsFollowed_takePrstChange hs hw.1))
  | prstRelease p _ _ hw h =>
    exact pinsFollowed_wires h (pinsFollowed_ignoreIackAssertion (pinsFollowed_takePrstChange hs hw.1))
  | hubReset _ hi hw => exact pinsFollowed_hubResetState hs hw.1
  | hubRelease req _ _ hi hw h => exact pinsFollowed_wires h (pinsFollowed_hubRelease hs hw.1)
  | sample sm _ _ hn h => exact pinsFollowed_wires h (pinsFollowed_samplePeriod hn hs)

/-! Ports held in reset (R50, R158, R159) -/

/-- The reset of port `p` is taken, with no change of the input recognised since (R49, R159). -/
def ResetTaken (s : State) (p : Master) : Prop :=
  (s.hubHeld = true ∧ s.inputs.hrst.change = false) ∨
    ((s.port p).resetHeld = true ∧ (s.prstInput p).change = false)

/-- Queues empty and flags clear, the notices apart, and zero on the data lines (R50, R158). -/
def PortBlank (q : Port) : Prop := q.commands = [] ∧ q.replies = [] ∧ q.overrun = false ∧ q.ackWord = 0

/-- The window of every port whose reset is taken is blank. -/
def HeldPortsBlank (s : State) : Prop := ∀ p, ResetTaken s p → PortBlank (s.port p)

theorem heldPortCleared_iff :
    HeldPortCleared s ↔ HeldPortsBlank s ∧ ∀ p, ResetTaken s p → (s.ctx p).portState = .offline :=
  ⟨fun h => ⟨fun p hp => (h p hp).2, fun p hp => (h p hp).1⟩, fun h p hp => ⟨h.2 p hp, h.1 p hp⟩⟩

theorem resetHeld_of_taken (h : ResetTaken s p) : ResetHeld s p := h.imp .inr .inr

/-- In `u` every reset taken was taken in `s`, and its window is blank. -/
def KeepsHeld (s u : State) : Prop := ∀ p, ResetTaken u p → ResetTaken s p ∧ PortBlank (u.port p)

theorem resetTaken_wires (h : t.wires = u.wires) : ResetTaken t p ↔ ResetTaken u p := by
  rw [ResetTaken, ResetTaken, hubHeld_of_wires h, State.prstInput, State.prstInput, inputs_of_wires h,
    (window_of_bare (bare_of_wires h p)).1]

theorem portBlank_wires (h : t.wires = u.wires) : PortBlank (t.port p) ↔ PortBlank (u.port p) := by
  obtain ⟨-, -, ho, ha⟩ := window_of_bare (bare_of_wires h p)
  rw [PortBlank, PortBlank, commands_of_bare (bare_of_wires h p), replies_of_bare (bare_of_wires h p), ho, ha]

theorem keepsHeld_refl (hs : HeldPortsBlank s) : KeepsHeld s s := fun p h => ⟨h, hs p h⟩

theorem keepsHeld_wires (h : t.wires = u.wires) (hu : KeepsHeld s u) : KeepsHeld s t := fun p hp => by
  rw [portBlank_wires h]
  exact hu p ((resetTaken_wires h).1 hp)

/-- A window written that is not that of a port held, or is left blank. -/
theorem keepsHeld_setPort {q : Port} (hs : HeldPortsBlank s) (hr : q.resetHeld = (s.port p).resetHeld)
    (hq : ResetTaken s p → PortBlank q) : KeepsHeld s (s.setPort p q) := fun k hk => by
  have hiff : ResetTaken (s.setPort p q) k ↔ ResetTaken s k := by
    have : ((s.setPort p q).port k).resetHeld = (s.port k).resetHeld := by
      rw [setPort_port]
      split
      · next h => rw [hr, h]
      · rfl
    rw [ResetTaken, ResetTaken, this]
    rfl
  have hk' := hiff.1 hk
  refine ⟨hk', ?_⟩
  rw [setPort_port]
  split
  · next h =>
    subst h
    exact hq hk'
  · exact hs k hk'

theorem keepsHeld_takeIackChange {held : Bool} {w : Word} (hu : KeepsHeld s u) (hw : ResetTaken s p → w = 0) :
    KeepsHeld s (takeIackChange p held w u) := fun k hk => by
  have hiff : ResetTaken (takeIackChange p held w u) k ↔ ResetTaken u k := by
    have : ((takeIackChange p held w u).port k).resetHeld = (u.port k).resetHeld := by
      rw [takeIackChange_port]
      split
      · next h => rw [h]
      · rfl
    rw [ResetTaken, ResetTaken, this]
    rfl
  obtain ⟨hs, hc, hr, ho, ha⟩ := hu k (hiff.1 hk)
  refine ⟨hs, ?_⟩
  rw [takeIackChange_port]
  split
  · next h =>
    subst h
    exact ⟨hc, hr, ho, hw hs⟩
  · exact ⟨hc, hr, ho, ha⟩

theorem keepsHeld_ignoreIackAssertion (hu : KeepsHeld s u) : KeepsHeld s (ignoreIackAssertion u p) := by
  unfold ignoreIackAssertion
  split
  · exact keepsHeld_takeIackChange hu fun _ => rfl
  · exact hu

/-- PRSTn taken at `p`: no other port is held anew. -/
theorem resetTaken_takePrstChange {held : Bool} (hk : p ≠ k) :
    ResetTaken (takePrstChange p held s) k ↔ ResetTaken s k := by
  rw [ResetTaken, ResetTaken, takePrstChange_port, takePrstChange_prstInput, if_neg hk, if_neg hk]
  rfl

/-- PRSTn taken while HRST is held, or its release. -/
theorem keepsHeld_takePrstChange {held : Bool} (hs : HeldPortsBlank s)
    (hh : held = true → s.hubHeld = true ∧ s.inputs.hrst.change = false) : KeepsHeld s (takePrstChange p held s) :=
  fun k hk => by
    have hk' : ResetTaken s k := by
      by_cases hpk : p = k
      · subst hpk
        rcases hk with hk | ⟨hk, -⟩
        · exact .inl hk
        · rw [takePrstChange_port, if_pos rfl] at hk
          exact .inl (hh hk)
      · exact (resetTaken_takePrstChange hpk).1 hk
    refine ⟨hk', ?_⟩
    rw [takePrstChange_port]
    split
    · next hpk =>
      subst hpk
      exact hs p hk'
    · exact hs k hk'

theorem keepsHeld_hubRelease {req : BitVec 24} (hs : HeldPortsBlank s) : KeepsHeld s (hubRelease req s) := by
  have hv : KeepsHeld s (masters.foldl ignoreIackAssertion s) :=
    foldl_keeps (P := KeepsHeld s) (fun _ _ => keepsHeld_ignoreIackAssertion) masters (keepsHeld_refl hs)
  intro k hk
  rw [hubRelease] at hk ⊢
  rw [hubReleaseState_port]
  refine hv k (.inr ?_)
  rcases hk with ⟨hk, -⟩ | hk
  · cases hk
  · rw [hubReleaseState_port, State.prstInput, (hubReleaseState_inputs req _).1] at hk
    exact hk

theorem keepsHeld_samplePeriod {sm : Samples} (hn : NoChangeWaits s) (hs : HeldPortsBlank s) :
    KeepsHeld s (samplePeriod sm s) := fun k hk => by
  obtain ⟨-, hp, -, hh⟩ := hn
  have hk' : ResetTaken s k := hk.imp (fun h => ⟨h.1, hh⟩) fun h => ⟨h.1, hp k⟩
  exact ⟨hk', hs k hk'⟩

/-- After a row the window of a port whose reset is taken is blank, and the reset is not new, or the master is
OFFLINE. -/
theorem wired_held {i : Instr} (h : Wired i s t) (hs : HeldPortsBlank s) (hp : ResetTaken t p) :
    PortBlank (t.port p) ∧ (ResetTaken s p ∨ (t.ctx p).portState = .offline) := by
  have hkeep (h : KeepsHeld s t) : PortBlank (t.port p) ∧ (ResetTaken s p ∨ (t.ctx p).portState = .offline) :=
    ⟨(h p hp).2, .inl (h p hp).1⟩
  cases h with
  | keep _ _ h => exact hkeep (keepsHeld_wires h (keepsHeld_refl hs))
  | line n _ _ hi h => exact hkeep (keepsHeld_wires h (keepsHeld_refl hs))
  | reply k words _ _ hc hl h =>
    exact hkeep (keepsHeld_wires h (keepsHeld_setPort hs rfl fun hk => absurd (hs k hk).1 hc))
  | write k q _ _ hh hw h =>
    exact hkeep (keepsHeld_wires h (keepsHeld_setPort hs hw.window.1 fun hk => absurd (resetHeld_of_taken hk) hh))
  | read k w r _ _ hr h =>
    refine hkeep (keepsHeld_wires h (keepsHeld_setPort hs rfl fun hk => ?_))
    obtain ⟨hc, hrep, ho, ha⟩ := hs k hk
    refine ⟨hc, ?_, ho, ha⟩
    rcases hr with rfl | rfl
    · exact hrep
    · change (s.port k).replies.tail = []
      rw [hrep]
      rfl
  | iack k held w _ _ hw hz h =>
    exact hkeep (keepsHeld_wires h (keepsHeld_takeIackChange (keepsHeld_refl hs) fun hk => hz (resetHeld_of_taken hk)))
  | prstHeld k _ _ hw hh h => exact hkeep (keepsHeld_wires h (keepsHeld_takePrstChange hs fun _ => hh))
  | prstReset k _ _ hw hoff h =>
    have hw' := (portBlank_wires h (p := p))
    rw [resetPortRecords_port] at hw'
    by_cases hk : k = p
    · subst hk
      rw [if_pos rfl] at hw'
      exact ⟨hw'.2 ⟨rfl, rfl, rfl, rfl⟩, .inr hoff⟩
    · have ht : ResetTaken s p := by
        have := (resetTaken_wires h).1 hp
        rw [ResetTaken, resetPortRecords_port, if_neg hk] at this
        exact (resetTaken_takePrstChange hk).1 this
      rw [if_neg hk, takePrstChange_port, if_neg hk] at hw'
      exact ⟨hw'.2 (hs p ht), .inl ht⟩
  | prstRelease k _ _ hw h =>
    exact hkeep (keepsHeld_wires h (keepsHeld_ignoreIackAssertion (keepsHeld_takePrstChange hs nofun)))
  | hubReset _ hi hw =>
    rw [hubResetState_port, hubResetState_ctx]
    exact ⟨⟨rfl, rfl, rfl, rfl⟩, .inr rfl⟩
  | hubRelease req _ _ hi hw h => exact hkeep (keepsHeld_wires h (keepsHeld_hubRelease hs))
  | sample sm _ _ hn h => exact hkeep (keepsHeld_wires h (keepsHeld_samplePeriod hn hs))

/-! An OFFLINE master stays OFFLINE until it joins (R39, R41) -/

theorem offline_ite {c : Context} (hk : (s.ctx k).portState = .offline)
    (hc : p = k → c.portState = .offline) : (if p = k then c else s.ctx k).portState = .offline := by
  split
  · next h => exact hc h
  · exact hk

/-- No event but its own JOIN brings an OFFLINE master in. -/
theorem event_offline {i : Instr} {b : Bool} (h : Event i s b u) (ha : AwayMastersClear s)
    (hoff : (s.ctx k).portState = .offline) (hi : i ≠ .join k) : (u.ctx k).portState = .offline := by
  have hself (c : Context) (m : Master) (hc : c.portState = (s.ctx m).portState) (hm : m = k) :
      c.portState = .offline := hc.trans (hm ▸ hoff)
  have hentry (m : Master) (src : Source) (he : ∃ e ∈ (s.ctx m).stack, e.source = src) : m ≠ k := by
    rintro rfl
    have := member_of_entry ha he
    simp [hoff] at this
  cases h with
  | idle => exact hoff
  | notice | rise | fallEdge | fallLevel | fallOffered | lapse | settings | configure | trig | raise | raiseIdle =>
    exact hoff
  | hubRelease => rwa [hubReleaseState_ctx]
  | flush => rwa [flushQueue_ctx]
  | hubReset =>
    rw [hubResetState_ctx]
    rfl
  | portReset =>
    rw [portResetPresent_ctx]
    exact offline_ite hoff fun _ => rfl
  | portResetOffline p =>
    rw [resetPortRecords_ctx]
    exact offline_ite hoff (hself _ p rfl)
  | tick =>
    rw [raiseExpiries_ctx]
    exact hoff
  | setFence =>
    rw [clearMisses_ctx]
    exact hoff
  | reclaim m src =>
    rw [chargedRecords_ctx]
    exact offline_ite hoff (hself _ m rfl)
  | reclaimFence m src _ he =>
    have hne := hentry m src he
    rwa [fenceMaster_ctx, if_neg hne, chargedRecords_ctx, if_neg hne]
  | reclaimLeave m src =>
    rw [endLeaving_ctx]
    split
    · rfl
    · next hne => rwa [chargedRecords_ctx, if_neg hne]
  | take p src via =>
    rw [takeSource_ctx]
    exact offline_ite hoff (hself _ p rfl)
  | join p _ hj =>
    rw [notifyOthers_ctx, setPortState_ctx]
    exact offline_ite hoff fun hp => absurd (hp ▸ hj) hi
  | leaveEmpty =>
    rw [endLeaving_ctx]
    exact offline_ite hoff fun _ => rfl
  | leaveBusy p _ hon =>
    rw [setPortState_ctx]
    exact offline_ite hoff fun hp => by
      subst hp
      simp [hoff] at hon
  | fence m _ hp =>
    rw [fenceMaster_ctx]
    exact offline_ite hoff fun hm => by
      subst hm
      simp [hoff] at hp
  | unfence =>
    rw [readmit_ctx]
    exact offline_ite hoff fun _ => rfl
  | modes p d _ _ _ hd =>
    rw [setCtx_ctx]
    exact offline_ite hoff (hself _ p hd.portState)
  | complete p src =>
    rw [completedRecords_ctx]
    exact offline_ite hoff (hself _ p rfl)
  | completeLeave p src =>
    rw [endLeaving_ctx]
    split
    · rfl
    · next hne => rwa [completedRecords_ctx, if_neg hne]
  | late p =>
    rw [setCtx_ctx]
    exact offline_ite hoff (hself _ p rfl)

theorem happens_offline {i : Instr} (h : Happens i s t) (ha : AwayMastersClear s)
    (hoff : (s.ctx k).portState = .offline) (hi : i ≠ .join k) : (t.ctx k).portState = .offline := by
  obtain ⟨s0, t0, h0, ⟨b, s1, u, hw, he, rfl⟩, ht⟩ := h
  have ha0 := awayMastersClear_same h0 ha
  have hw1 : (∀ k, s1.ctx k = s0.ctx k) ∧ ∀ k, s1.port k = s0.port k := by
    rcases hw with rfl | ⟨-, ⟨m, rfl⟩ | ⟨src, rfl⟩⟩
    · exact ⟨fun _ => rfl, fun _ => rfl⟩
    · exact ⟨by simp, by simp⟩
    · exact ⟨by simp, by simp⟩
  have hu := event_offline he (awayMastersClear_frame ha0 hw1.1 hw1.2) (by rwa [hw1.1, h0.ctx]) hi
  rw [ht.ctx]
  cases b
  · exact hu
  · exact (congrArg Context.portState (dispatchPass_ctx u k)).trans hu

/-- A step keeps the masters of ports held in reset OFFLINE and their windows blank. -/
theorem step_heldPortCleared (hs : HeldPortCleared s) (ha : AwayMastersClear s) (h : step s = .next t) :
    HeldPortCleared t := by
  rcases step_row h with rfl | ⟨i, rest, hrow⟩
  · exact hs
  obtain ⟨hblank, hoff⟩ := heldPortCleared_iff.1 (show HeldPortCleared (s.withPending rest) from hs)
  refine heldPortCleared_iff.2 ⟨fun p hp => (wired_held (exec_wired i hrow) hblank hp).1, fun p hp => ?_⟩
  rcases (wired_held (exec_wired i hrow) hblank hp).2 with hold | hnew
  · by_cases hi : i = .join p
    · subst hi
      rcases exec_execution_cases p .join (s.withPending rest) with hr | ⟨w, l, -, hq, -⟩
      · cases hr.symm.trans hrow
        exact hoff p hp
      · cases hq.symm.trans (hblank p hold).1
    · exact happens_offline (exec_happens i hrow) (show AwayMastersClear (s.withPending rest) from ha) (hoff p hold) hi
  · exact hnew

/-! Request lines (R3, R4, R5) -/

@[simp] theorem completeLine_line (x : Tracker) (y : Trigger) : (x.completeLine y).line = x.line := by
  unfold Tracker.completeLine
  cases y <;> dsimp only <;> split <;> rfl

@[simp] theorem completeSignal_line (x : Tracker) (l : List Signal) : (x.completeSignal l).line = x.line := by
  unfold Tracker.completeSignal
  split <;> rfl

theorem deassertEvent_line (x : Tracker) : x.deassertEvent.line = x.line := by
  unfold Tracker.deassertEvent
  split <;> rfl

@[simp] theorem retrigger_line (x : Tracker) (y : Trigger) : (x.retrigger y).line = x.line := by
  unfold Tracker.retrigger
  split
  · rfl
  · split <;> rfl

theorem setTracker_line {i j : Source} {x : Tracker} (h : x.line = (s.tracker i).line) :
    ((s.setTracker i x).tracker j).line = (s.tracker j).line := by
  rw [setTracker_tracker]
  split
  · next hj => exact hj ▸ h
  · rfl

/-- What is taken of the lines changes by the rows of the lines and of HRST alone. -/
theorem event_line {i : Instr} {b : Bool} (h : Event i s b u) (hi : movesLines i = false) (j : Source) :
    (u.tracker j).line = (s.tracker j).line := by
  have hw (m : Master) : ((withdraw m s).tracker j).line = (s.tracker j).line := (withdraw_frame m s).line j
  cases h with
  | rise _ _ hm | fallEdge _ _ _ hm | fallLevel _ _ _ _ hm | fallOffered _ _ _ _ hm | hubRelease _ _ hm =>
    simp [hm] at hi
  | hubReset _ hm => simp [hm, movesLines] at hi
  | idle => rfl
  | notice | leaveBusy | unfence | modes | settings | setFence | late | portResetOffline | tick | raise => rfl
  | join => rw [notifyOthers_tracker, setPortState_tracker]
  | leaveEmpty => rw [endLeaving_tracker]
  | portReset =>
    rw [portResetPresent_tracker]
    split
    · rw [interrupt_line, hw]
    · exact hw _
  | fence =>
    rw [fenceMaster_tracker]
    split
    · exact (interrupt_line _ _).trans (hw _)
    · exact hw _
  | lapse =>
    rw [lapseOffer_tracker]
    split <;> rfl
  | reclaim =>
    rw [chargedRecords_tracker]
    split
    · exact interrupt_line _ _
    · rfl
  | reclaimFence m src =>
    have hc : ((withdraw m (chargedRecords m src s)).tracker j).line = (s.tracker j).line := by
      rw [(withdraw_frame m _).line j, chargedRecords_tracker]
      split
      · exact interrupt_line _ _
      · rfl
    rw [fenceMaster_tracker]
    split
    · exact (interrupt_line _ _).trans hc
    · exact hc
  | reclaimLeave =>
    rw [endLeaving_tracker, chargedRecords_tracker]
    split
    · exact interrupt_line _ _
    · rfl
  | take p src =>
    rw [takeSource_tracker]
    split
    · next h =>
      subst h
      split
      · split <;> simp
      · rfl
    · rfl
  | configure =>
    rw [configureRoute_tracker]
    split <;> rfl
  | trig =>
    rw [retriggered_tracker]
    split <;> simp
  | flush g =>
    unfold flushQueue
    split
    · rfl
    · exact setTracker_line (s := s.setQueue g []) rfl
    · rfl
    · rfl
  | raiseIdle g => exact setTracker_line (s := s.setQueue g _) rfl
  | complete =>
    rw [completedRecords_tracker]
    split
    · split <;> simp
    · rfl
  | completeLeave =>
    rw [endLeaving_tracker, completedRecords_tracker]
    split
    · split <;> simp
    · rfl

theorem happens_line {i : Instr} (h : Happens i s t) (hi : movesLines i = false) (j : Source) :
    (t.tracker j).line = (s.tracker j).line := by
  obtain ⟨s0, t0, h0, ⟨b, s1, u, hw, he, rfl⟩, ht⟩ := h
  have h1 : (s1.tracker j).line = (s0.tracker j).line := by
    rcases hw with rfl | ⟨-, ⟨m, rfl⟩ | ⟨src, rfl⟩⟩
    · rfl
    · exact (withdraw_frame m s0).line j
    · exact (withdrawSource_frame src s0).line j
  have hu : (u.tracker j).line = (s.tracker j).line := by rw [event_line he hi, h1, h0.tracker]
  rw [ht.tracker]
  cases b
  · exact hu
  · exact ((dispatchPass_frame u).line j).trans hu

/-- The lines as recognised, less what waits, change by those rows alone. -/
theorem wired_reqLine {i : Instr} (h : Wired i s t) (hi : movesLines i = false) (n : Line) :
    takenLevel (t.reqLine n) = takenLevel (s.reqLine n) := by
  have hinputs (v : State) (h : t.wires = v.wires) (hv : v.inputs.req = s.inputs.req) :
      takenLevel (t.reqLine n) = takenLevel (s.reqLine n) := by
    rw [State.reqLine, State.reqLine, inputs_of_wires h, hv]
  cases h with
  | line _ _ _ hm | hubReset _ hm | hubRelease _ _ _ hm => simp [hm] at hi
  | keep _ _ h | reply _ _ _ _ _ _ h | write _ _ _ _ _ _ h | read _ _ _ _ _ _ h | iack _ _ _ _ _ _ _ h
  | prstHeld _ _ _ _ _ h | prstReset _ _ _ _ _ h => exact hinputs _ h rfl
  | prstRelease p _ _ hw h => exact hinputs _ h (ignoreIackAssertion_frame _ p).req
  | sample sm _ _ hn h =>
    have hs : t.reqLine n = (samplePeriod sm s).reqLine n := by rw [State.reqLine, State.reqLine, inputs_of_wires h]
    rw [hs, samplePeriod_reqLine]
    split
    · rfl
    · exact takenLevel_sample (hn.1 n) _ _

theorem lineSource_inj {n k : Line} : lineSource n = lineSource k ↔ n = k := by
  simp [lineSource, Fin.ext_iff]

/-- The change of line `n` taken, and its level at the tracker. -/
theorem linesFollowed_taken {n : Line} {b : Bool} (hs : LinesFollowed s) (hl : (s.reqLine n).level = b)
    (ht : ∀ j, (t.tracker j).line = if lineSource n = j then b else (s.tracker j).line)
    (hr : ∀ k, t.reqLine k = (takeLineChange n s).reqLine k) : LinesFollowed t := fun k => by
  rw [ht, hr, takeLineChange_reqLine]
  by_cases hk : n = k
  · subst hk
    rw [if_pos rfl, if_pos rfl, takenLevel_taken hl]
  · rw [if_neg (mt lineSource_inj.1 hk), if_neg hk]
    exact hs k

@[simp] theorem edgeEvent_line (x : Tracker) : x.edgeEvent.line = x.line := by
  unfold Tracker.edgeEvent
  split
  · rfl
  · rfl
  · rfl
  · split <;> rfl

@[simp] theorem assertEvent_line (x : Tracker) : x.assertEvent.line = x.line := by
  unfold Tracker.assertEvent
  split <;> rfl

theorem risen_line (y : Trigger) (x : Tracker) : (risen y x).line = true := by
  cases y
  · exact edgeEvent_line _
  · exact assertEvent_line _

theorem riseEvent_line (src j : Source) :
    ((riseEvent src s).tracker j).line = if src = j then true else (s.tracker j).line := by
  have hu : ((s.setTracker src (risen (s.route src).trigger (s.tracker src))).tracker j).line =
      if src = j then true else (s.tracker j).line := by
    rw [setTracker_tracker]
    split
    · exact risen_line _ _
    · rfl
  have he : riseEvent src s =
      if (s.tracker src).state = .idle then
        dispatchPass (s.setTracker src (risen (s.route src).trigger (s.tracker src)))
      else s.setTracker src (risen (s.route src).trigger (s.tracker src)) := rfl
  rw [he]
  split
  · exact ((dispatchPass_frame _).line j).trans hu
  · exact hu

theorem fallEvent_line (src j : Source) :
    ((fallEvent src s).tracker j).line = if src = j then false else (s.tracker j).line := by
  have hset (v : State) (x : Tracker) (hx : x.line = false) (hv : (v.tracker j).line = (s.tracker j).line) :
      ((v.setTracker src x).tracker j).line = if src = j then false else (s.tracker j).line := by
    rw [setTracker_tracker]
    split
    · exact hx
    · exact hv
  unfold fallEvent
  split
  · exact hset s _ rfl rfl
  · split
    · exact ((dispatchPass_frame _).line j).trans (hset _ _ rfl ((withdrawSource_frame src s).line j))
    · exact hset s _ (deassertEvent_line ((s.tracker src).setLine false)) rfl

theorem reqLine_of_wires (h : t.wires = u.wires) (n : Line) : t.reqLine n = u.reqLine n := by
  rw [State.reqLine, State.reqLine, inputs_of_wires h]

/-- Every row takes of the request lines what waits. -/
theorem exec_linesFollowed {i : Instr} (h : exec i s = .next t) (hs : LinesFollowed s) : LinesFollowed t := by
  cases hi : movesLines i with
  | false =>
    intro n
    rw [happens_line (exec_happens i h) hi, wired_reqLine (exec_wired i h) hi]
    exact hs n
  | true =>
    cases i with
    | rise n =>
      cases h
      split
      · next hw =>
        simp only [Bool.and_eq_true] at hw
        exact linesFollowed_taken hs (waiting_iff.1 hw.2).1 (riseEvent_line _) (reqLine_of_wires (riseEvent_wires _ _))
      · exact hs
    | fall n =>
      cases h
      split
      · next hw =>
        simp only [Bool.and_eq_true] at hw
        exact linesFollowed_taken hs (waiting_iff.1 hw.2).1 (fallEvent_line _) (reqLine_of_wires (fallEvent_wires _ _))
      · exact hs
    | hubReset =>
      cases h
      split
      · intro n
        rw [hubResetState_tracker, hubResetState_reqLine, takenLevel_settled]
        rfl
      · exact hs
    | hubResetRelease req =>
      cases h
      split
      · intro n
        rw [hubRelease, hubReleaseState_tracker, hubReleaseState_reqLine]
        simp [takenLevel, lineSource]
      · exact hs
    | _ => cases hi

/-- A step takes of every input what waits. -/
theorem step_inputsFollowed (hs : InputsFollowed s) (h : step s = .next t) : InputsFollowed t := by
  rcases step_row h with rfl | ⟨i, rest, hrow⟩
  · exact hs
  obtain ⟨hl, hp⟩ := inputsFollowed_iff.1 (show InputsFollowed (s.withPending rest) from hs)
  exact inputsFollowed_iff.2 ⟨exec_linesFollowed hrow hl, wired_pinsFollowed (exec_wired i hrow) hp⟩

end

end Sys2Proof.Machine

/-! PROOFS. All the invariants together. -/

namespace Sys2Proof.Machine

open Sys2Proof.Safety

/-- The invariants of a consistent hub, in the groups that the proofs keep. -/
theorem consistent_iff {s : State} : Consistent s ↔
    (PortQueuesBounded s ∧ SignalQueuesBounded s) ∧ BindersPresent s ∧ RoutesRegular s ∧ MissesBelowThreshold s ∧
      (RecordsFit s ∧ OffersQualify s ∧ NoneWaitsBeforeFreeSlot s) ∧ HeldPortCleared s ∧ InputsFollowed s := by
  constructor
  · intro h
    have hfit : RecordsFit s :=
      ⟨pairsMatch_iff.2 ⟨h.holders, h.offersMatch, h.stacksMatch⟩, trackersFit_iff.2 ⟨h.flags, h.signalIdle⟩,
        awayMastersClear_iff.2 ⟨h.awayStack, h.offlineCleared⟩,
        contextsFit_iff.2 ⟨h.reclaimedSize, h.reclaimedApart, h.nested, h.stackSize⟩⟩
    exact ⟨⟨h.portQueues, h.signalQueues⟩, h.binders, h.routes, h.misses, ⟨hfit, h.offersQualify, h.noneWaits⟩,
      h.heldPorts, h.inputsFollowed⟩
  · rintro ⟨⟨hports, hsignals⟩, hbinders, hroutes, hmisses, ⟨hfit, hqualify, hwaits⟩, hheld, hinputs⟩
    obtain ⟨hholders, hoffers, hstacks⟩ := pairsMatch_iff.1 hfit.pairs
    obtain ⟨hflags, hidle⟩ := trackersFit_iff.1 hfit.trackers
    obtain ⟨haway, hcleared⟩ := awayMastersClear_iff.1 hfit.away
    obtain ⟨hsize, hapart, hnested, hdepth⟩ := contextsFit_iff.1 hfit.contexts
    exact
      { portQueues := hports, signalQueues := hsignals, reclaimedSize := hsize, holders := hholders
        binders := hbinders, offersOnline := offersOnline_of_qualify hqualify, awayStack := haway
        offlineCleared := hcleared, offersMatch := hoffers, stacksMatch := hstacks, signalIdle := hidle
        flags := hflags, routes := hroutes, reclaimedApart := hapart, misses := hmisses, offersQualify := hqualify
        nested := hnested, stackSize := hdepth, noneWaits := hwaits, heldPorts := hheld, inputsFollowed := hinputs }

/-- Settles O55: each group is kept by every step, some with the help of others. -/
theorem everyStepKeepsConsistent : Obligations.EveryStepKeepsConsistent := by
  unfold Obligations.EveryStepKeepsConsistent
  intro s t hs h
  obtain ⟨⟨hports, hsignals⟩, hbinders, hroutes, hmisses, ⟨hfit, hqualify, hwaits⟩, hheld, hinputs⟩ :=
    consistent_iff.1 hs
  exact consistent_iff.2 ⟨everyStepKeepsQueuesBounded s t hports hsignals h, everyStepKeepsBindersPresent s t hbinders h,
    step_routesRegular hroutes h, step_missesBelow hmisses h, step_recordsFit hfit hqualify hwaits h,
    step_heldPortCleared hheld hfit.away h, step_inputsFollowed hinputs h⟩

/-! The reset state -/

theorem recordsFit_reset : RecordsFit State.reset where
  pairs := by
    refine ⟨fun i => sourceMatch_of_resting ?_ ?_ (fun k => ?_) fun k => ?_, fun k => ?_⟩
    · rw [reset_tracker]
      exact .inl rfl
    · rw [reset_tracker]
      rfl
    · simp [OwnOffer]
    · simp [Stacked, Context.reset]
    · rw [reset_ctx]
      exact List.nodup_nil
  trackers i := by
    rw [reset_tracker]
    refine trackerFit_toIdle (t := Tracker.reset false) fun l hl => ?_
    obtain ⟨g, -, rfl⟩ := Option.map_eq_some_iff.1 hl
    exact reset_queue g
  away m := by
    rw [reset_ctx, reset_port]
    exact ⟨fun _ => ⟨rfl, rfl⟩, fun _ => ⟨rfl, rfl, rfl⟩⟩
  contexts m := by
    rw [reset_ctx]
    exact contextFit_empty rfl rfl

/-- Settles O4. -/
theorem resetStateIsConsistent : Obligations.ResetStateIsConsistent := by
  unfold Obligations.ResetStateIsConsistent
  refine consistent_iff.2 ⟨⟨fun p => ?ports, fun g => ?signals⟩, fun i => ?binders, fun i => ?routes,
    ⟨by decide, fun m => ?misses⟩, ⟨recordsFit_reset, fun m o ho => by simp at ho, fun i m hoff => ?waits⟩, fun p hp => ?held,
    inputsFollowed_iff.2 ⟨fun n => ?lines, fun p => ?pins, ?hub⟩⟩
  case ports =>
    rw [reset_port]
    decide
  case signals =>
    rw [reset_queue]
    decide
  case binders =>
    rw [reset_route]
    exact ⟨nofun, nofun⟩
  case routes =>
    rw [reset_route]
    exact ⟨nofun, fun _ => rfl⟩
  case misses =>
    rw [reset_ctx]
    decide
  case waits =>
    have he : (State.reset.route i).enabled = false := by
      rw [reset_route]
      rfl
    rw [not_offerable_of_disabled he] at hoff
    cases hoff
  case held =>
    rw [reset_ctx, reset_port]
    exact ⟨rfl, rfl, rfl, rfl, rfl⟩
  case lines =>
    rw [reset_tracker, reset_reqLine]
    rfl
  case pins =>
    rw [reset_port, reset_prstInput, reset_iackInput]
    exact ⟨rfl, rfl⟩
  case hub => rfl

end Sys2Proof.Machine
